-- ==== Sys2Proof/Word.lean ====
section
/-! DEFINITION. The words of the block: bytes, the 24-bit host command word, and the split of a number into bytes. -/

namespace Sys2Proof

/-- A byte: 8 bits, bit 7 the most significant (R11). -/
abbrev Byte := BitVec 8

/-- The host command word `W`, 24 bits (R90). -/
abbrev HostWord := BitVec 24

end Sys2Proof
end

