-- ==== Sys2Proof/Syntax.lean ====
section
/-! DEFINITION. The instructions: one constructor per row of spec/opcode_table.json, the fifteen host operations
(R91, R112) and the five wire formats (R100 to R107), with the names they are built from. -/

namespace Sys2Proof

/-- The Command set of R12, in the order of the source (R93). -/
inductive Command where
  | lightOff | lightOn50 | lightOn100 | pair
deriving DecidableEq, Repr

/-- The six strobes of R150, in the order of R96. -/
inductive Strobe where
  | idle | txEnable | flushTx | reset | rxEnable | flushRx
deriving DecidableEq, Repr

/-- Which of the encodings of 30_encoding.md a string of bytes is read in. The bytes alone do not say it: a strobe
code and a register id share the first-byte position (R70), so a reader of wire bytes knows the format from the
block's position. -/
inductive Format where
  /-- format H, the host command word (R90) -/
  | host
  /-- format WW, a register write (R100) -/
  | registerWrite
  /-- format WR, the header byte of a register read (R101) -/
  | registerRead
  /-- format WS, a strobe (R102) -/
  | strobe
  /-- format WF, the OutboundFrame (R104) -/
  | frame
  /-- format WP, the InboundPacket (R107) -/
  | packet
deriving DecidableEq, Repr

/-- The instructions. The first fifteen are words of the host (R91); the last five are the wire formats, which a busy
block puts on the bus or takes from it (R100 to R107). -/
inductive Instr where
  /-- INIT (R165) -/
  | init
  /-- CMD OFF (R183, selector 0 of R93) -/
  | cmdOff
  /-- CMD ON50 (R183, selector 1) -/
  | cmdOn50
  /-- CMD ON100 (R183, selector 2) -/
  | cmdOn100
  /-- CMD PAIR (R183, selector 3) -/
  | cmdPair
  /-- DISC (R201) -/
  | disc
  /-- SETA hi, lo (R240) -/
  | seta (hi lo : Byte)
  /-- WREG id, value (R133) -/
  | wreg (id value : Byte)
  /-- RREG id (R136) -/
  | rreg (id : Byte)
  /-- STB IDLE (R153, selector 0 of R96) -/
  | stbIdle
  /-- STB TXEN (R153, selector 1) -/
  | stbTxen
  /-- STB FTX (R153, selector 2) -/
  | stbFtx
  /-- STB RESET (R153, selector 3) -/
  | stbReset
  /-- STB RXEN (R153, selector 4) -/
  | stbRxen
  /-- STB FRX (R153, selector 5) -/
  | stbFrx
  /-- WW: a register write on the wire, id then value (R100) -/
  | ww (id value : Byte)
  /-- WR: a register read on the wire; bits 6:0 of the id, bit 7 is the read bit (R101) -/
  | wr (id : BitVec 7)
  /-- WS: a strobe on the wire, its code byte (R102) -/
  | ws (code : Byte)
  /-- WF: an OutboundFrame, its three variable bytes (R104) -/
  | wf (hi lo opcode : Byte)
  /-- WP: a well-formed InboundPacket: `sync` leading 0x55 bytes, the payload's `hi`, `lo` and unexamined `x`, and the
  unexamined bytes after the terminator (R107) -/
  | wp (sync : Nat) (hi lo x : Byte) (rest : List Byte)
deriving DecidableEq, Repr

/-- The format an instruction is encoded in. -/
def Instr.format (i : Instr) : Format :=
  match i with
  | .init => .host
  | .cmdOff => .host
  | .cmdOn50 => .host
  | .cmdOn100 => .host
  | .cmdPair => .host
  | .disc => .host
  | .seta _ _ => .host
  | .wreg _ _ => .host
  | .rreg _ => .host
  | .stbIdle => .host
  | .stbTxen => .host
  | .stbFtx => .host
  | .stbReset => .host
  | .stbRxen => .host
  | .stbFrx => .host
  | .ww _ _ => .registerWrite
  | .wr _ => .registerRead
  | .ws _ => .strobe
  | .wf _ _ _ => .frame
  | .wp _ _ _ _ _ => .packet

end Sys2Proof
end

