-- ==== Sys2Proof/Machine/State.lean ====
section
/-! DEFINITION. The machine's state, as plain data: every element of 10_state.md (R20 to R46), the block's ports, and
the outcomes by which a step can stop. -/

namespace Sys2Proof.Machine

/-- `OP`: the operation in flight (R28). -/
inductive Operation where
  | none | init | cmd | disc | seta | wreg | rreg | stb
deriving DecidableEq, Repr

/-- `PH`: the phase within the operation (R28). -/
inductive Phase where
  | idle
  | iReset | iTable | iPower
  | cIdle | cFtx | cBurst | cTxen | cWait
  | dRxen | dCfg | dWait | dLen | dFifo | dReport | dIdle | dFrx
  | pWr | pRd | pStb
  | halt
deriving DecidableEq, Repr

/-- `CAUSE`: the fatal exception that halted the block (R37). -/
inductive Cause where
  | none | transportFault | protocolViolation
deriving DecidableEq, Repr

/-- `LASTV`: the verdict of the most recent discovery iteration (R38). -/
inductive LastVerdict where
  | none | noData | oversize | allSync | mismatch | matched
deriving DecidableEq, Repr

/-- `DS`: the discovery state (R39). -/
inductive DiscState where
  | idle | listening | pending | validated
deriving DecidableEq, Repr

/-- The status of a response (R99). -/
inductive Status where
  | ok | transportFault | protocolViolation | illegalOp | discExhausted
deriving DecidableEq, Repr

/-- `RSP = (status, d1, d0)` (R40, R98). -/
structure Response where
  status : Status
  d1 : Byte
  d0 : Byte
deriving DecidableEq, Repr

/-- An event of the downstream port (R9). -/
inductive Event where
  /-- `SEL`: assert chip select -/
  | sel
  /-- `DESEL`: deassert chip select -/
  | desel
  /-- `RDY`: block until the chip's ready signal is seen -/
  | rdy
  /-- `TX(b, d)`: write byte `b` with per-byte delay `d` -/
  | tx (b : Byte) (d : Nat)
  /-- `RX`: read one byte -/
  | rx
  /-- `DELAY(n)`: the block itself waits `n` delay units -/
  | delay (n : Nat)
  /-- `REPORT_OVERSIZE(n)`: the block pulses its report output -/
  | reportOversize (n : Byte)
deriving DecidableEq, Repr

/-- What the transport does with the next event that it must answer. The byte of `ok` is the byte read when the event
is `RX`, and is not looked at for any other event (R9, R62, log 3). -/
inductive Answer where
  | ok (y : Byte)
  | fail
deriving DecidableEq, Repr

/-- The answer of an event as the trace shows it (R9). -/
inductive Reply where
  | ok
  | byte (y : Byte)
  | fail
deriving DecidableEq, Repr

/-- One entry of the trace: an event with its answer (R9). -/
structure Emitted where
  event : Event
  reply : Reply
deriving DecidableEq, Repr

/-- The packet buffer's storage: (index, byte) cells, indices strictly rising, below 8, and no cell that holds what an
unlisted index reads as (log 7). -/
abbrev Memory := List Host.Cell

/-- The state of the block, its ports and its trace. -/
structure State where
  /-- `ADDR_HI` (R21) -/
  addrHi : Byte
  /-- `ADDR_LO` (R21) -/
  addrLo : Byte
  /-- `ADDR_VALID` (R22) -/
  addrValid : Bool
  /-- `BUF[0..7]` (R23) -/
  buf : Memory
  /-- `LEN` (R24) -/
  len : Byte
  /-- `OPC_LAT` (R25) -/
  opcLat : Byte
  /-- `PA` (R26) -/
  pa : Byte
  /-- `PB` (R26) -/
  pb : Byte
  /-- `RDATA` (R26) -/
  rdata : Byte
  /-- `OP` (R28) -/
  op : Operation
  /-- `PH` (R28) -/
  ph : Phase
  /-- `U`, the micro-step (R29) -/
  u : BitVec 4
  /-- `TI`, the table index (R30) -/
  ti : Nat
  /-- `REP`, the completed transmit cycles (R31) -/
  rep : BitVec 6
  /-- `BI`, the buffer index (R32) -/
  bi : BitVec 3
  /-- `IT`, the iterations without a match (R32) -/
  it : Nat
  /-- `INITED` (R34) -/
  inited : Bool
  /-- `OVS` (R35) -/
  ovs : Bool
  /-- `CS` (R36) -/
  cs : Bool
  /-- `CAUSE` (R37) -/
  cause : Cause
  /-- `FPH` (R37) -/
  fph : BitVec 5
  /-- `FU` (R37) -/
  fu : BitVec 4
  /-- `LASTV` (R38) -/
  lastv : LastVerdict
  /-- `DS` (R39) -/
  ds : DiscState
  /-- `RSP` (R40) -/
  rsp : Response
  /-- `RSP_VALID` (R40) -/
  rspValid : Bool
  /-- the command port: the words the host offers, the head is the word now on the port (R10, R33, log 2) -/
  offers : List HostWord
  /-- the transport's answers to the events to come (R44, R45, log 3) -/
  answers : List Answer
  /-- the reset input (R290, log 5) -/
  resetPin : Bool
  /-- the trace so far, oldest event first (R9, log 4) -/
  trace : List Emitted
deriving DecidableEq, Repr

/-- Why the machine stops. -/
inductive Fault where
  /-- Raised by `step` alone, in `PH_HALT` without a reset: "In PH_HALT no step is enabled" (R45). Safe (log 11). -/
  | halted
  /-- Raised by a micro-step whose position names no event (`U`, `TI` or `PA` outside R29, R30, R96). No run reaches
  such a position. Safe (log 12). -/
  | badPosition
deriving DecidableEq, Repr

/-- Why an instruction is not run. -/
inductive Refusal where
  /-- An instruction without a meaning in this model; no arm of `exec` answers it. Safe. -/
  | notModelled (mnemonic : String)
  /-- Raised by the meaning of a wire format when the block's position performs no transaction of that format: POS
  alone says which event is next (R45), so no step exists for it. `step` never raises it. Safe (log 8). -/
  | notAtPosition
deriving DecidableEq, Repr

/-- The machine right after hardware reset (R46, R291). `ADDR_HI`, `ADDR_LO`, `OPC_LAT`, `PA`, `PB`, `RDATA` and the
bytes of `BUF` are unspecified there: DESIGN CHOICE, zero (log 6, log 7). No word is offered, no answer is pending, the
reset input is not applied, nothing has been emitted: DESIGN CHOICE (log 2 to 5). -/
def State.reset : State where
  addrHi := 0
  addrLo := 0
  addrValid := false
  buf := []
  len := 0
  opcLat := 0
  pa := 0
  pb := 0
  rdata := 0
  op := .none
  ph := .idle
  u := 0
  ti := 0
  rep := 0
  bi := 0
  it := 0
  inited := false
  ovs := false
  cs := false
  cause := .none
  fph := 0
  fu := 0
  lastv := .none
  ds := .idle
  rsp := { status := .ok, d1 := 0, d0 := 0 }
  rspValid := false
  offers := []
  answers := []
  resetPin := false
  trace := []

end Sys2Proof.Machine
end

