-- ==== Sys2Proof/Machine/Codes.lean ====
section
/-! DEFINITION. The numbers of the named values: the codes of `OP`, `PH`, `CAUSE`, `LASTV`, `DS` and of the response
status (R28, R37, R38, R39, R99), and the 20-bit response word (R98). -/

namespace Sys2Proof.Machine

/-- `OP[2:0]` (R28). -/
def Operation.code (o : Operation) : BitVec 3 :=
  match o with
  | .none => 0
  | .init => 1
  | .cmd => 2
  | .disc => 3
  | .seta => 4
  | .wreg => 5
  | .rreg => 6
  | .stb => 7

/-- `PH[4:0]` (R28). -/
def Phase.code (p : Phase) : BitVec 5 :=
  match p with
  | .idle => 0
  | .iReset => 1
  | .iTable => 2
  | .iPower => 3
  | .cIdle => 4
  | .cFtx => 5
  | .cBurst => 6
  | .cTxen => 7
  | .cWait => 8
  | .dRxen => 9
  | .dCfg => 10
  | .dWait => 11
  | .dLen => 12
  | .dFifo => 13
  | .dReport => 14
  | .dIdle => 15
  | .dFrx => 16
  | .pWr => 17
  | .pRd => 18
  | .pStb => 19
  | .halt => 31

/-- `CAUSE[3:0]` (R37). -/
def Cause.code (c : Cause) : BitVec 4 :=
  match c with
  | .none => 0
  | .transportFault => 1
  | .protocolViolation => 2

/-- The response status that a halt posts, `RSP <- (cause, 0, 0)` (R256); `CAUSE_NONE` halts nothing. -/
def Cause.status (c : Cause) : Status :=
  match c with
  | .none => .ok
  | .transportFault => .transportFault
  | .protocolViolation => .protocolViolation

/-- `LASTV[2:0]` (R38). -/
def LastVerdict.code (v : LastVerdict) : BitVec 3 :=
  match v with
  | .none => 0
  | .noData => 1
  | .oversize => 2
  | .allSync => 3
  | .mismatch => 4
  | .matched => 5

/-- `DS[1:0]` (R39). -/
def DiscState.code (d : DiscState) : BitVec 2 :=
  match d with
  | .idle => 0
  | .listening => 1
  | .pending => 2
  | .validated => 3

/-- `status[3:0]` (R99). -/
def Status.code (t : Status) : BitVec 4 :=
  match t with
  | .ok => 0
  | .transportFault => 1
  | .protocolViolation => 2
  | .illegalOp => 3
  | .discExhausted => 4

/-- Format R: the 20 bits `{status, d1, d0}` (R98). -/
def Response.word (r : Response) : BitVec 20 := r.status.code ++ r.d1 ++ r.d0

end Sys2Proof.Machine
end

