-- ==== Sys2Proof/Machine/Flags.lean ====
section
/-! DEFINITION. The flags and status outputs: the predicates BUSY and HALTED (R33), the STATUS vector (R41), the rule
of `CS` (R36) and of `RDATA` (R26) under one answered event, and the branch of the length byte (R206, R218). -/

namespace Sys2Proof.Machine

/-- The block is idle (R33). -/
def isIdle (s : State) : Bool := s.ph == .idle
/-- `HALTED` (R33). -/
def isHalted (s : State) : Bool := s.ph == .halt
/-- `BUSY` (R33). -/
def isBusy (s : State) : Bool := !isIdle s && !isHalted s

/-- `STATUS[7:0]`, bit 0 last: 0, RSP_VALID, CS, OVS, INITED, ADDR_VALID, HALTED, BUSY (R41). -/
def statusByte (s : State) : Byte :=
  BitVec.ofBool false ++ BitVec.ofBool s.rspValid ++ BitVec.ofBool s.cs ++ BitVec.ofBool s.ovs ++
    BitVec.ofBool s.inited ++ BitVec.ofBool s.addrValid ++ BitVec.ofBool (isHalted s) ++ BitVec.ofBool (isBusy s)

/-- `CS` after an event answered ok (R36). -/
def csAfter (e : Event) (cs : Bool) : Bool :=
  match e with
  | .sel => true
  | .desel => false
  | .rdy => cs
  | .tx _ _ => cs
  | .rx => cs
  | .delay _ => cs
  | .reportOversize _ => cs

/-- `RDATA` after an event answered ok, `y` the byte of the answer (R26, R135). -/
def rdataAfter (e : Event) (y rdata : Byte) : Byte :=
  match e with
  | .rx => y
  | .sel => rdata
  | .desel => rdata
  | .rdy => rdata
  | .tx _ _ => rdata
  | .delay _ => rdata
  | .reportOversize _ => rdata

/-- Whether the transport must answer the event; `DELAY` and `REPORT_OVERSIZE` are always ok (R9, R251). -/
def needsAnswer (e : Event) : Bool :=
  match e with
  | .sel => true
  | .desel => true
  | .rdy => true
  | .tx _ _ => true
  | .rx => true
  | .delay _ => false
  | .reportOversize _ => false

/-- The ok answer of an event as the trace shows it: `ok(y)` for `RX`, `ok` otherwise (R9). -/
def okReply (e : Event) (y : Byte) : Reply :=
  match e with
  | .rx => .byte y
  | .sel => .ok
  | .desel => .ok
  | .rdy => .ok
  | .tx _ _ => .ok
  | .delay _ => .ok
  | .reportOversize _ => .ok

end Sys2Proof.Machine
end

