-- ==== Sys2Proof/Config.lean ====
section
/-! DEFINITION. The open parameters of R8: constants with no body, so that whatever is proved holds for every value
the implementation may fix (R44, R294, log 13). -/

namespace Sys2Proof

/-- A RegisterEntry, "(register-id, value) pair" (R12, R63). -/
structure RegisterEntry where
  reg : Byte
  val : Byte
deriving DecidableEq, Repr, Inhabited

/-- The five nonzero delay constants that `DELAY_UNIT` ranges over (R8). -/
inductive DelayConstant where
  | wrByte | wrSettle | stbSettle | cycle | listen
deriving DecidableEq, Repr

/-- `STB_CODE[s]`: the wire byte of each strobe, not given by the source (R8, R103, D10). -/
opaque Config.stbCode : Strobe → Byte

/-- `OPC[LightOff]` (R8, R105, D11). -/
opaque Config.opcLightOff : Byte

/-- `OPC[LightOn100]` (R8, R105, D11). -/
opaque Config.opcLightOn100 : Byte

/-- `OPC[Pair]` (R8, R105, D11). -/
opaque Config.opcPair : Byte

/-- `CFG[0 .. N_CFG-1]`, the configuration table; `N_CFG` is its length (R8, R63, D12). -/
opaque Config.table : List RegisterEntry

/-- `PWR_REG` and `PWR_VAL`, the output-power write that ends INIT (R8, R169). -/
opaque Config.power : RegisterEntry

/-- `RXLEN_REG`, the FIFO length register's id (R8, D13). -/
opaque Config.rxlenReg : Byte

/-- `FIFO_REG`, the FIFO register's id (R8, D13). -/
opaque Config.fifoReg : Byte

/-- `PKTRDY_REG` and `PKTRDY_VAL`, the packet-ready reconfiguration (R8, R204, D14). -/
opaque Config.pktrdy : RegisterEntry

/-- `DISC_LIMIT`: a natural number of at least 1, or `INF` (here `none`) (R8, R217, D24). -/
opaque Config.discLimit : Option { n : Nat // 1 ≤ n }

/-- `DELAY_UNIT[k]`: the duration of one unit of each delay constant, in a measure no rule fixes; no rule reads it
(R8, R313, D9). -/
opaque Config.delayUnit : DelayConstant → Nat

end Sys2Proof
end

