-- ==== Sys2Proof/WellFormed.lean ====
section
/-! DEFINITION. Which terms of `Instr` are instructions: every operand is a bit vector of its field's width, so the
one check is the length of an InboundPacket (R107). -/

namespace Sys2Proof

/-- A well-formed instruction. R107: a packet has `1 <= LEN <= 8`, and its five payload bytes stand inside the `LEN`
bytes; with `LEN = sync + 5 + rest.length` that is `LEN <= 8`, and it follows that `sync <= 3`. -/
def Instr.wellFormed (i : Instr) : Bool :=
  match i with
  | .init => true
  | .cmdOff => true
  | .cmdOn50 => true
  | .cmdOn100 => true
  | .cmdPair => true
  | .disc => true
  | .seta _ _ => true
  | .wreg _ _ => true
  | .rreg _ => true
  | .stbIdle => true
  | .stbTxen => true
  | .stbFtx => true
  | .stbReset => true
  | .stbRxen => true
  | .stbFrx => true
  | .ww _ _ => true
  | .wr _ => true
  | .ws _ => true
  | .wf _ _ _ => true
  | .wp sync _ _ _ rest => decide (sync + 5 + rest.length ≤ 8)

end Sys2Proof
end

