-- ==== Sys2Proof/Decode.lean ====
section
/-! DEFINITION. The decoder, total on any bytes and rejecting by name, and the encoder, both written from the encoding
tables of 30_encoding.md (R90 to R107). -/

namespace Sys2Proof

/-- Why a string of bytes is no instruction of a format. -/
inductive DecodeError where
  /-- `opc` is 0x00 or 0x08 to 0xFF (R97) -/
  | reservedOpcode
  /-- a field marked "must be 0" is not 0 (R91, R97) -/
  | operandNotZero
  /-- a CMD selector above 3 or an STB selector above 5 (R93, R96, R97) -/
  | selectorOutOfRange
  /-- the format has another number of bytes (R109) -/
  | wrongLength
  /-- the header of a register read without its read bit (R101) -/
  | readBitClear
  /-- a constant byte of the OutboundFrame is another one (R104) -/
  | frameConstant
  /-- no well-formed InboundPacket (R107) -/
  | malformedPacket
deriving DecidableEq, Repr

/-- `SYNC` (R6). -/
def syncByte : Byte := 0x55
/-- `DISCRIM` (R6). -/
def discrimByte : Byte := 0x01
/-- `TERM` (R6). -/
def termByte : Byte := 0xAA

/-- Operand fields that must both be 0 (R92). -/
def decodeNoOperands (a b : Byte) (i : Instr) : Except DecodeError Instr :=
  if a = 0 ∧ b = 0 then .ok i else .error .operandNotZero

/-- A CMD word: the selector table of R93, `B` 0. -/
def decodeCommand (a b : Byte) : Except DecodeError Instr :=
  if b = 0 then
    match a.toNat with
    | 0 => .ok .cmdOff
    | 1 => .ok .cmdOn50
    | 2 => .ok .cmdOn100
    | 3 => .ok .cmdPair
    | _ => .error .selectorOutOfRange
  else .error .operandNotZero

/-- An STB word: the selector table of R96, `B` 0. -/
def decodeStrobe (a b : Byte) : Except DecodeError Instr :=
  if b = 0 then
    match a.toNat with
    | 0 => .ok .stbIdle
    | 1 => .ok .stbTxen
    | 2 => .ok .stbFtx
    | 3 => .ok .stbReset
    | 4 => .ok .stbRxen
    | 5 => .ok .stbFrx
    | _ => .error .selectorOutOfRange
  else .error .operandNotZero

/-- The operation codes of R91 over the three byte fields of R90. -/
def decodeFields (opc a b : Byte) : Except DecodeError Instr :=
  match opc.toNat with
  | 0x01 => decodeNoOperands a b .init
  | 0x02 => decodeCommand a b
  | 0x03 => decodeNoOperands a b .disc
  | 0x04 => .ok (.seta a b)
  | 0x05 => .ok (.wreg a b)
  | 0x06 => if b = 0 then .ok (.rreg a) else .error .operandNotZero
  | 0x07 => decodeStrobe a b
  | _ => .error .reservedOpcode

/-- Field `opc`, bits 23:16 (R90). -/
def wordOpc (w : HostWord) : Byte := w.extractLsb' 16 8
/-- Field `A`, bits 15:8 (R90). -/
def wordA (w : HostWord) : Byte := w.extractLsb' 8 8
/-- Field `B`, bits 7:0 (R90). -/
def wordB (w : HostWord) : Byte := w.extractLsb' 0 8

/-- A host command word decoded (R90, R91, R97). -/
def decodeWord (w : HostWord) : Except DecodeError Instr :=
  decodeFields (wordOpc w) (wordA w) (wordB w)

/-- An InboundPacket (R107), `sync` sync bytes already skipped: the payload `[0x01, hi, lo, X, 0xAA]` stands at the
first byte that is not 0x55, whatever follows the terminator is not examined. -/
def decodePacketFrom (sync : Nat) (bytes : List Byte) : Except DecodeError Instr :=
  match bytes with
  | [] => .error .malformedPacket
  | b :: more =>
    if b = syncByte then decodePacketFrom (sync + 1) more
    else
      match more with
      | hi :: lo :: x :: t :: rest =>
        if b = discrimByte ∧ t = termByte then .ok (.wp sync hi lo x rest) else .error .malformedPacket
      | _ => .error .malformedPacket

/-- The decoder: the instruction that the bytes are in a format, or the reason there is none. -/
def decode (f : Format) (bytes : List Byte) : Except DecodeError Instr :=
  match f with
  | .host =>
    match bytes with
    | [opc, a, b] => decodeFields opc a b
    | _ => .error .wrongLength
  | .registerWrite =>
    match bytes with
    | [id, value] => .ok (.ww id value)
    | _ => .error .wrongLength
  | .registerRead =>
    match bytes with
    | [header] => if header.getLsbD 7 then .ok (.wr (header.setWidth 7)) else .error .readBitClear
    | _ => .error .wrongLength
  | .strobe =>
    match bytes with
    | [code] => .ok (.ws code)
    | _ => .error .wrongLength
  | .frame =>
    match bytes with
    | [f0, f1, f2, f3, hi, lo, opcode, f7, f8] =>
      if f0 = 0x7F ∧ f1 = 0x06 ∧ f2 = 0x55 ∧ f3 = 0x01 ∧ f7 = 0xAA ∧ f8 = 0xFF then .ok (.wf hi lo opcode)
      else .error .frameConstant
    | _ => .error .wrongLength
  | .packet =>
    if bytes.length ≤ 8 then decodePacketFrom 0 bytes else .error .wrongLength

/-- The header byte of a register read from bits 6:0 of the id: bit 7 is the read bit (R101). -/
def readHeaderOf (id : BitVec 7) : Byte := id.setWidth 8 ||| 0x80

/-- The bytes of an instruction, in the order they are written: `opc`, `A`, `B` for a host word (R90), first byte
first on the wire (R100 to R107). -/
def encode (i : Instr) : List Byte :=
  match i with
  | .init => [0x01, 0x00, 0x00]
  | .cmdOff => [0x02, 0x00, 0x00]
  | .cmdOn50 => [0x02, 0x01, 0x00]
  | .cmdOn100 => [0x02, 0x02, 0x00]
  | .cmdPair => [0x02, 0x03, 0x00]
  | .disc => [0x03, 0x00, 0x00]
  | .seta hi lo => [0x04, hi, lo]
  | .wreg id value => [0x05, id, value]
  | .rreg id => [0x06, id, 0x00]
  | .stbIdle => [0x07, 0x00, 0x00]
  | .stbTxen => [0x07, 0x01, 0x00]
  | .stbFtx => [0x07, 0x02, 0x00]
  | .stbReset => [0x07, 0x03, 0x00]
  | .stbRxen => [0x07, 0x04, 0x00]
  | .stbFrx => [0x07, 0x05, 0x00]
  | .ww id value => [id, value]
  | .wr id => [readHeaderOf id]
  | .ws code => [code]
  | .wf hi lo opcode => [0x7F, 0x06, 0x55, 0x01, hi, lo, opcode, 0xAA, 0xFF]
  | .wp sync hi lo x rest => List.replicate sync syncByte ++ discrimByte :: hi :: lo :: x :: termByte :: rest

/-- The 24-bit word of three byte fields, `{opc, A, B}` (R90, R110). -/
def wordOfFields (opc a b : Byte) : HostWord := opc ++ a ++ b

/-- The host word of an instruction's three bytes; 0 (an illegal word, R97) where it is no host operation. -/
def encodeWord (i : Instr) : HostWord :=
  match encode i with
  | [opc, a, b] => wordOfFields opc a b
  | _ => 0

/-- The `n` bytes of the number `w`, least significant first. -/
def bytesOfNat (n w : Nat) : List Byte :=
  match n with
  | 0 => []
  | k + 1 => BitVec.ofNat 8 w :: bytesOfNat k (w / 256)

/-- The format of a table row of `nbits` bits: an 8-bit row is a read header when its bit 7 is set (R101) and a strobe
code otherwise (log 10). -/
def tableFormat (nbits w : Nat) : Option Format :=
  match nbits with
  | 24 => some .host
  | 16 => some .registerWrite
  | 8 => if w.testBit 7 then some .registerRead else some .strobe
  | 72 => some .frame
  | 40 => some .packet
  | 48 => some .packet
  | 56 => some .packet
  | 64 => some .packet
  | _ => none

/-- The bytes of a table word of `nbits` bits, first byte first. A host row is one 24-bit word, `opc` its most
significant byte (R90). A wire row is bytes, the first at bits 7:0; a number that no instruction of the format has in
that order is read as the row's pattern, leftmost byte first (log 10). -/
def tableBytes (nbits w : Nat) : List Byte :=
  let bytes := bytesOfNat (nbits / 8) w
  match tableFormat nbits w with
  | none => bytes
  | some .host => bytes.reverse
  | some f =>
    match decode f bytes with
    | .ok _ => bytes
    | .error _ => bytes.reverse

/-- The instruction the decoder reads from the bits of a row of spec/opcode_table.json. -/
def decodeTableWord (nbits w : Nat) : Option Instr :=
  match tableFormat nbits w with
  | none => none
  | some f =>
    match decode f (tableBytes nbits w) with
    | .ok i => some i
    | .error _ => none

end Sys2Proof
end

