-- ==== Sys2Proof/Machine/Operands.lean ====
section
/-! DEFINITION. The operand forms: the CMD and STB selectors, the mapping of a command to its wire opcode and of a
strobe to its code, the read header, and the nine bytes of the OutboundFrame. -/

namespace Sys2Proof.Machine

/-- The STB selector of a strobe (R96); what the Accept step of STB leaves in `PA` (R153). -/
def strobeSelector (t : Strobe) : Byte :=
  match t with
  | .idle => 0
  | .txEnable => 1
  | .flushTx => 2
  | .reset => 3
  | .rxEnable => 4
  | .flushRx => 5

/-- `sel(PA)` (R28, R96): the strobe a selector names; 6 to 255 name none. -/
def strobeOfSelector (a : Byte) : Option Strobe :=
  match a.toNat with
  | 0 => some .idle
  | 1 => some .txEnable
  | 2 => some .flushTx
  | 3 => some .reset
  | 4 => some .rxEnable
  | 5 => some .flushRx
  | _ => none

/-- `OPC[c]` (R105, R182): 0x02 for LightOn50, open parameters for the other three. -/
def commandOpcode (c : Command) : Byte :=
  match c with
  | .lightOff => Config.opcLightOff
  | .lightOn50 => 0x02
  | .lightOn100 => Config.opcLightOn100
  | .pair => Config.opcPair

/-- `a | 0x80`, the header byte of a register read (R101, R139). -/
def readHeader (a : Byte) : Byte := a ||| 0x80

/-- Bits 6:0 of a register id, all that a read header keeps of it (R61, R101). -/
def readId (a : Byte) : BitVec 7 := a.setWidth 7

/-- `frame(hi, lo, opc)`, the nine bytes of the OutboundFrame, offset 0 first (R181, R104). -/
def frame (hi lo opc : Byte) : List Byte :=
  [0x7F, 0x06, 0x55, 0x01, hi, lo, opc, 0xAA, 0xFF]

end Sys2Proof.Machine
end

