-- ==== Sys2Proof/Machine/Scripts.lean ====
section
/-! DEFINITION. The delay constants (R6, R7) and the scripts of the four transactions and of the three phases that
are a single event (R131, R134, R151, R185, R187, R220). The event at micro-step `U` is the script's entry `U`
(R29, R132, R135, R152). -/

namespace Sys2Proof.Machine

/-- `N_REPEAT` (R6, R188). -/
def nRepeat : Nat := 50
/-- `MAX_PKT` (R6). -/
def maxPkt : Nat := 8
/-- `D_WR_BYTE` (R6). -/
def delayWrByte : Nat := 200
/-- `D_WR_SETTLE` (R6). -/
def delayWrSettle : Nat := 200
/-- `D_STB_SETTLE`, the same for all six strobes (R6, R155). -/
def delayStbSettle : Nat := 20000
/-- `D_FRAME_BYTE` (R6). -/
def delayFrameByte : Nat := 0
/-- `D_CYCLE` (R6). -/
def delayCycle : Nat := 10
/-- `D_LISTEN` (R6). -/
def delayListen : Nat := 200
/-- `D_RD_HDR` (R7). -/
def delayRdHeader : Nat := 0
/-- `D_STB_BYTE` (R7). -/
def delayStbByte : Nat := 0

/-- `WR(a, v)` (R131). -/
def writeScript (a v : Byte) : List Event :=
  [.sel, .rdy, .tx a delayWrByte, .tx v delayWrByte, .desel, .delay delayWrSettle]

/-- `RD(a)` with the header byte `a | 0x80` given (R134). -/
def readScript (header : Byte) : List Event :=
  [.sel, .rdy, .tx header delayRdHeader, .rx, .desel]

/-- `STB(s)` with the code byte `STB_CODE[s]` given (R151). -/
def strobeScript (code : Byte) : List Event :=
  [.sel, .rdy, .tx code delayStbByte, .desel, .delay delayStbSettle]

/-- `BURST(F)`: the bytes in order inside one select bracket (R106, R185). -/
def burstScript (bytes : List Byte) : List Event :=
  .sel :: .rdy :: (bytes.map fun b => Event.tx b delayFrameByte) ++ [.desel]

/-- The script of a phase that performs no transaction but one event of the block's own: the end-of-cycle wait
(R187), the listen settle (R204), the oversize report (R208). -/
def plainScript (s : State) : List Event :=
  match s.ph with
  | .cWait => [.delay delayCycle]
  | .dWait => [.delay delayListen]
  | .dReport => [.reportOversize s.len]
  | .idle => []
  | .iReset => []
  | .iTable => []
  | .iPower => []
  | .cIdle => []
  | .cFtx => []
  | .cBurst => []
  | .cTxen => []
  | .dRxen => []
  | .dCfg => []
  | .dLen => []
  | .dFifo => []
  | .dIdle => []
  | .dFrx => []
  | .pWr => []
  | .pRd => []
  | .pStb => []
  | .halt => []

/-- The format of the transaction a phase performs (R28); none for a phase without a transaction. -/
def phaseFormat (p : Phase) : Option Format :=
  match p with
  | .iReset => some .strobe
  | .iTable => some .registerWrite
  | .iPower => some .registerWrite
  | .cIdle => some .strobe
  | .cFtx => some .strobe
  | .cBurst => some .frame
  | .cTxen => some .strobe
  | .dRxen => some .strobe
  | .dCfg => some .registerWrite
  | .dLen => some .registerRead
  | .dFifo => some .registerRead
  | .dIdle => some .strobe
  | .dFrx => some .strobe
  | .pWr => some .registerWrite
  | .pRd => some .registerRead
  | .pStb => some .strobe
  | .idle => none
  | .cWait => none
  | .dWait => none
  | .dReport => none
  | .halt => none

end Sys2Proof.Machine
end

