-- ==== Sys2Proof/Machine/Ops.lean ====
section
/-! DEFINITION. The shared operations: the packet buffer, accepting and completing an operation, emitting one event,
taking an exception (R256 to R262) and, in place of a return, hardware reset (R267, R290). -/

namespace Sys2Proof.Machine

/-! The packet buffer (R23, R64). -/

/-- What an index of `BUF` that no cell lists reads as: R46 gives no value, DESIGN CHOICE 0x00 (log 7). -/
def Memory.blank : Byte := 0

/-- The byte at an index (`BUF[i]`, R11). -/
def Memory.read (m : Memory) (i : Nat) : Byte :=
  match m with
  | [] => Memory.blank
  | (j, v) :: more => if j = i then v else Memory.read more i

/-- The cells with index `i` taken out. -/
def Memory.erase (m : Memory) (i : Nat) : Memory :=
  match m with
  | [] => []
  | (j, v) :: more => if j = i then Memory.erase more i else (j, v) :: Memory.erase more i

/-- A cell put in its place among the rising indices. -/
def Memory.insert (m : Memory) (i : Nat) (v : Byte) : Memory :=
  match m with
  | [] => [(i, v)]
  | (j, w) :: more => if i < j then (i, v) :: (j, w) :: more else (j, w) :: Memory.insert more i v

/-- `BUF[i] <- v` (R11); writing the blank value leaves no cell, so that equal memories are equal data. -/
def Memory.write (m : Memory) (i : Nat) (v : Byte) : Memory :=
  if v = Memory.blank then Memory.erase m i else Memory.insert (Memory.erase m i) i v

/-- Every index is at least `lo` and the indices rise strictly. -/
def Memory.risingFrom (lo : Nat) (m : Memory) : Bool :=
  match m with
  | [] => true
  | (j, _) :: more => decide (lo ≤ j) && Memory.risingFrom (j + 1) more

/-- The canonical form: strictly rising indices, all below the eight bytes of `BUF`, no cell equal to the blank. -/
def Memory.wf (m : Memory) : Bool :=
  Memory.risingFrom 0 m && m.all fun c => decide (c.1 < 8) && decide (c.2 ≠ Memory.blank)

/-! Sequencing. -/

/-- `PH <- p; U <- 0` (R11, R29). -/
def enterPhase (p : Phase) (s : State) : State := { s with ph := p, u := 0 }

/-- The part every acceptance shares: `RSP_VALID` is cleared (R40, R45), `OP`, `PH` and `U` take their first values. -/
def beginOperation (o : Operation) (p : Phase) (s : State) : State :=
  { s with rspValid := false, op := o, ph := p, u := 0 }

/-- `complete(status, d1, d0)` (R11). -/
def complete (t : Status) (d1 d0 : Byte) (s : State) : State :=
  { s with rsp := { status := t, d1 := d1, d0 := d0 }, rspValid := true, ph := .idle, u := 0, op := .none }

/-! Exceptions. There is no handler and no return (R266, R267): a fatal entry halts, and hardware reset leaves it. -/

/-- `halt(cause, fph, fu)`, the entry both fatal exceptions share (R256). -/
def haltWith (c : Cause) (fph : BitVec 5) (fu : BitVec 4) (s : State) : State :=
  { s with
    cause := c, fph := fph, fu := fu
    rsp := { status := c.status, d1 := 0, d0 := 0 }, rspValid := true
    ph := .halt }

/-- TransportFault entry: the position of the failing event is saved (R251, R257). -/
def raiseTransportFault (s : State) : State := haltWith .transportFault s.ph.code s.u s

/-- ProtocolViolation entry (R252, R258). -/
def raiseProtocolViolation (s : State) : State := haltWith .protocolViolation Phase.idle.code 0 s

/-- IllegalOp: the response and nothing else (R97, R261). -/
def refuseIllegal (s : State) : State :=
  { s with rsp := { status := .illegalOp, d1 := 0, d0 := 0 }, rspValid := true }

/-- Hardware reset: every element at its reset value, whatever the block was doing; no event is emitted (R290, R292).
The ports' scripts and the trace are the environment's, so they stay; the pulse on the reset input ends (log 5). -/
def hardwareReset (s : State) : State :=
  { State.reset with offers := s.offers, answers := s.answers, trace := s.trace }

/-! Emitting one event (R45). -/

/-- `emit e` puts the event and its answer at the end of the trace (R9, R11). -/
def record (e : Event) (r : Reply) (s : State) : State := { s with trace := s.trace ++ [{ event := e, reply := r }] }

/-- The answers still to come. -/
def withAnswers (rest : List Answer) (s : State) : State := { s with answers := rest }

/-- The data effects of an event answered ok: `CS` (R36) and `RDATA` (R26). -/
def afterEvent (e : Event) (y : Byte) (s : State) : State :=
  { s with cs := csAfter e s.cs, rdata := rdataAfter e y s.rdata }

/-- An event answered ok, all but the move of the position. -/
def eventOk (e : Event) (y : Byte) (s : State) : State := afterEvent e y (record e (okReply e y) s)

/-- An event answered fail: it stands in the trace, its effects do not happen, the block halts (R257). -/
def eventFailed (e : Event) (s : State) : State := raiseTransportFault (record e .fail s)

/-- `Emit(e, ans)` (R45): `after` moves the position once the event is answered ok. An event the transport must answer
and has not answered leaves the block waiting, with no step enabled: the state as it was (R140, log 3). -/
def emitEvent (e : Event) (after : State → State) (s : State) : Host.Outcome State Fault Refusal :=
  if needsAnswer e then
    match s.answers with
    | [] => .next s
    | .fail :: rest => .next (eventFailed e (withAnswers rest s))
    | .ok y :: rest => .next (after (eventOk e y (withAnswers rest s)))
  else .next (after (eventOk e 0 s))

/-- The move of the position after an event: `U + 1` inside a transaction, else the phase-completion action `done`
(R45). -/
def moveOn (script : List Event) (done : State → State) (s : State) : State :=
  if s.u.toNat + 1 < script.length then { s with u := s.u + 1 } else done s

/-- One micro-step of a transaction: the event of its script at index `U`, then the move (R29, R45). -/
def emitAt (script : List Event) (done : State → State) (s : State) : Host.Outcome State Fault Refusal :=
  match script[s.u.toNat]? with
  | none => .fault .badPosition
  | some e => emitEvent e (moveOn script done) s

end Sys2Proof.Machine
end

