-- ==== Sys2Proof/Machine/AddressAssignment.lean ====
section
/-! DEFINITION. Address assignment: the operation SETA, accepted and completed in one step (R240, R241). -/

namespace Sys2Proof.Machine

/-- SETA (R241). -/
def execSeta (hi lo : Byte) (s : State) : Host.Outcome State Fault Refusal :=
  if isIdle s then .next (complete .ok 0 0 { s with addrHi := hi, addrLo := lo, addrValid := true }) else .next s

end Sys2Proof.Machine
end

