-- ==== Sys2Proof/Machine/Parser.lean ====
section
/-! DEFINITION. The inbound packet parser and the verdict of a discovery iteration, pure functions of `LEN` and `BUF`
(R210 to R214, R223). -/

namespace Sys2Proof.Machine

/-- The verdict of an iteration; a match carries the address (R223). -/
inductive Verdict where
  | noData | oversize | allSync | mismatch
  | matched (hi lo : Byte)
deriving DecidableEq, Repr

/-- The code of a verdict that `LASTV` keeps (R38). -/
def Verdict.last (v : Verdict) : LastVerdict :=
  match v with
  | .noData => .noData
  | .oversize => .oversize
  | .allSync => .allSync
  | .mismatch => .mismatch
  | .matched _ _ => .matched

/-- `BUF[0 .. n-1]`, index 0 first. -/
def received (m : Memory) (n : Nat) : List Byte := (List.range n).map (Memory.read m)

/-- The smallest index whose byte is not 0x55 (`min S` of R210); none when every byte is. -/
def firstNonSync (bytes : List Byte) : Option Nat :=
  match bytes with
  | [] => none
  | b :: more => if b = syncByte then (firstNonSync more).map (· + 1) else some 0

/-- `parse(LEN, BUF)` over the `LEN` received bytes (R210): an index at or past `LEN` has no byte, so a terminator
position there is a mismatch (R213). -/
def parse (bytes : List Byte) : Verdict :=
  match firstNonSync bytes with
  | none => .allSync
  | some s =>
    match bytes[s]?, bytes[s + 1]?, bytes[s + 2]?, bytes[s + 4]? with
    | some d, some hi, some lo, some t =>
      if d = discrimByte ∧ t = termByte then .matched hi lo else .mismatch
    | _, _, _, _ => .mismatch

/-- `verdict(LEN, BUF)` (R206, R223). -/
def verdict (len : Byte) (m : Memory) : Verdict :=
  if len.toNat = 0 then .noData
  else if maxPkt < len.toNat then .oversize
  else parse (received m len.toNat)

end Sys2Proof.Machine
end

