-- ==== Sys2Proof/Machine/AddressDiscoverer.lean ====
section
/-! DEFINITION. AddressDiscoverer: the operation DISC and the completions of its phases (R201, R216 to R220). -/

namespace Sys2Proof.Machine

/-- DISC: its Accept step (R201). -/
def execDisc (s : State) : Host.Outcome State Fault Refusal :=
  if isIdle s then .next (beginOperation .disc .dRxen { s with it := 0, ds := .idle }) else .next s

/-- `D_RXEN` completes: listening (R218, R220). -/
def finishDRxen (s : State) : State := enterPhase .dCfg { s with ds := .listening }

/-- `D_LEN` completes: the three-way branch on the whole length byte (R206, R218, R220). -/
def finishDLen (s : State) : State :=
  if s.rdata.toNat = 0 then enterPhase .dIdle { s with len := s.rdata }
  else if maxPkt < s.rdata.toNat then enterPhase .dReport { s with len := s.rdata }
  else enterPhase .dFifo { s with len := s.rdata, bi := 0, ds := .pending }

/-- `D_FIFO` completes: the byte goes to `BUF[BI]`; the next byte, or the flush (R23, R32, R220). -/
def finishDFifo (s : State) : State :=
  if s.bi.toNat + 1 < s.len.toNat then
    enterPhase .dFifo { s with buf := Memory.write s.buf s.bi.toNat s.rdata, bi := s.bi + 1 }
  else enterPhase .dIdle { s with buf := Memory.write s.buf s.bi.toNat s.rdata }

/-- `D_REPORT` completes (R35, R208, R259). -/
def finishDReport (s : State) : State := enterPhase .dIdle { s with ovs := true }

/-- `D_FRX` completes with a match: the Address is written here and at no earlier point (R216). -/
def acceptAddress (hi lo : Byte) (s : State) : State :=
  complete .ok hi lo { s with addrHi := hi, addrLo := lo, addrValid := true, lastv := .matched, ds := .validated }

/-- A finite `DISC_LIMIT` is reached by this iteration, `IT + 1 >= DISC_LIMIT` (R217). -/
def limitReached (it : Nat) : Bool :=
  match Config.discLimit with
  | none => false
  | some limit => decide (limit.val ≤ it + 1)

/-- `D_FRX` completes without a match: exhaustion, or the next iteration (R217, R262). -/
def loopBack (v : LastVerdict) (s : State) : State :=
  if limitReached s.it then complete .discExhausted 0 0 { s with lastv := v, ds := .idle, it := s.it + 1 }
  else enterPhase .dRxen { s with lastv := v, ds := .idle, it := s.it + 1 }

/-- `D_FRX` completes (R219, R220, R223); a match is tested first (R265). -/
def finishDFrx (s : State) : State :=
  match verdict s.len s.buf with
  | .matched hi lo => acceptAddress hi lo s
  | .noData => loopBack .noData s
  | .oversize => loopBack .oversize s
  | .allSync => loopBack .allSync s
  | .mismatch => loopBack .mismatch s

end Sys2Proof.Machine
end

