-- ==== Sys2Proof/Machine/ChipInitializer.lean ====
section
/-! DEFINITION. ChipInitializer: the operation INIT and the completions of its phases (R165, R167). -/

namespace Sys2Proof.Machine

/-- INIT: its Accept step (R165). -/
def execInit (s : State) : Host.Outcome State Fault Refusal :=
  if isIdle s then .next (beginOperation .init .iReset { s with inited := false }) else .next s

/-- `I_RESET` completes (R167). -/
def finishIReset (s : State) : State :=
  if 0 < Config.table.length then enterPhase .iTable { s with ti := 0 } else enterPhase .iPower s

/-- `I_TABLE` completes: the next entry, or the power write (R30, R167). -/
def finishITable (s : State) : State :=
  if s.ti + 1 < Config.table.length then enterPhase .iTable { s with ti := s.ti + 1 } else enterPhase .iPower s

/-- `I_POWER` completes (R34, R167). -/
def finishIPower (s : State) : State := complete .ok 0 0 { s with inited := true }

end Sys2Proof.Machine
end

