-- ==== Sys2Proof/Machine/CommandTransmitter.lean ====
section
/-! DEFINITION. CommandTransmitter: the operation CMD in its four forms and the completions of its phases (R183, R187). -/

namespace Sys2Proof.Machine

/-- The Accept step of CMD: without an Address the fatal ProtocolViolation, before any event (R183, R258). -/
def acceptCommand (c : Command) (s : State) : Host.Outcome State Fault Refusal :=
  if isIdle s then
    if s.addrValid then .next (beginOperation .cmd .cIdle { s with opcLat := commandOpcode c, rep := 0 })
    else .next (raiseProtocolViolation s)
  else .next s

/-- CMD OFF (R183). -/
def execCmdOff (s : State) : Host.Outcome State Fault Refusal := acceptCommand .lightOff s
/-- CMD ON50 (R183). -/
def execCmdOn50 (s : State) : Host.Outcome State Fault Refusal := acceptCommand .lightOn50 s
/-- CMD ON100 (R183). -/
def execCmdOn100 (s : State) : Host.Outcome State Fault Refusal := acceptCommand .lightOn100 s
/-- CMD PAIR (R183, R192). -/
def execCmdPair (s : State) : Host.Outcome State Fault Refusal := acceptCommand .pair s

/-- `C_WAIT` completes: the next of the 50 cycles, or the end (R31, R187, R190). -/
def finishCWait (s : State) : State :=
  if s.rep.toNat + 1 < nRepeat then enterPhase .cIdle { s with rep := s.rep + 1 } else complete .ok 0 0 s

end Sys2Proof.Machine
end

