-- ==== Sys2Proof/Machine/RegisterInterface.lean ====
section
/-! DEFINITION. RegisterInterface: the operations WREG and RREG and the completions of their phases (R133, R136). -/

namespace Sys2Proof.Machine

/-- WREG: its Accept step (R133). A word offered when the block is not idle is not accepted and has no effect
(R33, D2, log 14). -/
def execWreg (id value : Byte) (s : State) : Host.Outcome State Fault Refusal :=
  if isIdle s then .next (beginOperation .wreg .pWr { s with pa := id, pb := value }) else .next s

/-- RREG: its Accept step (R136). -/
def execRreg (id : Byte) (s : State) : Host.Outcome State Fault Refusal :=
  if isIdle s then .next (beginOperation .rreg .pRd { s with pa := id }) else .next s

/-- `P_WR` completes (R133). -/
def finishPWr (s : State) : State := complete .ok 0 0 s

/-- `P_RD` completes: the byte is delivered only now (R135, R136). -/
def finishPRd (s : State) : State := complete .ok 0 s.rdata s

end Sys2Proof.Machine
end

