-- ==== Sys2Proof/Machine/StrobeController.lean ====
section
/-! DEFINITION. StrobeController: the operation STB in its six forms and the completion of its phase (R153). -/

namespace Sys2Proof.Machine

/-- The Accept step of STB: `PA` takes the selector (R153, R96). -/
def acceptStrobe (t : Strobe) (s : State) : Host.Outcome State Fault Refusal :=
  if isIdle s then .next (beginOperation .stb .pStb { s with pa := strobeSelector t }) else .next s

/-- STB IDLE (R153). -/
def execStbIdle (s : State) : Host.Outcome State Fault Refusal := acceptStrobe .idle s
/-- STB TXEN (R153). -/
def execStbTxen (s : State) : Host.Outcome State Fault Refusal := acceptStrobe .txEnable s
/-- STB FTX (R153). -/
def execStbFtx (s : State) : Host.Outcome State Fault Refusal := acceptStrobe .flushTx s
/-- STB RESET (R153): it does not clear `INITED`. -/
def execStbReset (s : State) : Host.Outcome State Fault Refusal := acceptStrobe .reset s
/-- STB RXEN (R153): it does not move `DS` (R157). -/
def execStbRxen (s : State) : Host.Outcome State Fault Refusal := acceptStrobe .rxEnable s
/-- STB FRX (R153). -/
def execStbFrx (s : State) : Host.Outcome State Fault Refusal := acceptStrobe .flushRx s

/-- `P_STB` completes (R153). -/
def finishPStb (s : State) : State := complete .ok 0 0 s

end Sys2Proof.Machine
end

