-- ==== Sys2Proof/Machine/Phases.lean ====
section
/-! DEFINITION. The phase tables' last column in one place: the phase-completion action of every phase
(R133, R136, R153, R167, R187, R220). -/

namespace Sys2Proof.Machine

/-- The phase-completion action of the current phase (R45). `PH_IDLE` and `PH_HALT` perform no transaction, so nothing
completes in them. -/
def completePhase (s : State) : State :=
  match s.ph with
  | .idle => s
  | .iReset => finishIReset s
  | .iTable => finishITable s
  | .iPower => finishIPower s
  | .cIdle => enterPhase .cFtx s
  | .cFtx => enterPhase .cBurst s
  | .cBurst => enterPhase .cTxen s
  | .cTxen => enterPhase .cWait s
  | .cWait => finishCWait s
  | .dRxen => finishDRxen s
  | .dCfg => enterPhase .dWait s
  | .dWait => enterPhase .dLen s
  | .dLen => finishDLen s
  | .dFifo => finishDFifo s
  | .dReport => finishDReport s
  | .dIdle => enterPhase .dFrx s
  | .dFrx => finishDFrx s
  | .pWr => finishPWr s
  | .pRd => finishPRd s
  | .pStb => finishPStb s
  | .halt => s

end Sys2Proof.Machine
end

