-- ==== Sys2Proof/Machine/Fetch.lean ====
section
/-! DEFINITION. What the block does next: the block has no instruction memory (R27), its next instruction is the word
on the command port when it is idle (R33, R45) and the transaction its position names when it is busy (R27, R28). -/

namespace Sys2Proof.Machine

/-- The transaction of the current phase as a wire instruction (R28); none in a phase without a transaction, and at an
index outside its range (R30, R96), which no run reaches. -/
def phaseInstr (s : State) : Option Instr :=
  match s.ph with
  | .iReset => some (.ws (Config.stbCode .reset))
  | .iTable =>
    match Config.table[s.ti]? with
    | some e => some (.ww e.reg e.val)
    | none => none
  | .iPower => some (.ww Config.power.reg Config.power.val)
  | .cIdle => some (.ws (Config.stbCode .idle))
  | .cFtx => some (.ws (Config.stbCode .flushTx))
  | .cBurst => some (.wf s.addrHi s.addrLo s.opcLat)
  | .cTxen => some (.ws (Config.stbCode .txEnable))
  | .dRxen => some (.ws (Config.stbCode .rxEnable))
  | .dCfg => some (.ww Config.pktrdy.reg Config.pktrdy.val)
  | .dLen => some (.wr (readId Config.rxlenReg))
  | .dFifo => some (.wr (readId Config.fifoReg))
  | .dIdle => some (.ws (Config.stbCode .idle))
  | .dFrx => some (.ws (Config.stbCode .flushRx))
  | .pWr => some (.ww s.pa s.pb)
  | .pRd => some (.wr (readId s.pa))
  | .pStb =>
    match strobeOfSelector s.pa with
    | some t => some (.ws (Config.stbCode t))
    | none => none
  | .idle => none
  | .cWait => none
  | .dWait => none
  | .dReport => none
  | .halt => none

/-- The received packet as an instruction, at the micro-step that completes `D_FRX` (R216, R220, log 9). -/
def packetInstr (s : State) : Option Instr :=
  if s.ph = .dFrx ∧ s.u = 4 ∧ s.len.toNat ≤ maxPkt then
    match decode .packet (received s.buf s.len.toNat) with
    | .ok i => some i
    | .error _ => none
  else none

/-- The instruction a busy block runs at its position. -/
def busyInstr (s : State) : Option Instr :=
  match packetInstr s with
  | some i => some i
  | none => phaseInstr s

/-- What the next step is. -/
inductive Fetched where
  /-- hardware reset is applied (R290) -/
  | reset
  /-- halted: no step is enabled (R45) -/
  | halted
  /-- idle and no word offered: the block waits (R33) -/
  | waiting
  /-- a word is taken from the port and matches no row of R91 (R97) -/
  | illegal (s : State)
  /-- an instruction is run in the given state -/
  | run (i : Instr) (s : State)
  /-- a busy phase that performs no transaction emits its one event -/
  | plain
deriving DecidableEq, Repr

/-- A word taken from the command port: it leaves the port whether it is legal or not (R45, R97). -/
def fetchWord (s : State) : Fetched :=
  match s.offers with
  | [] => .waiting
  | w :: rest =>
    match decodeWord w with
    | .ok i => .run i { s with offers := rest }
    | .error _ => .illegal { s with offers := rest }

/-- The next step of the block (R33, R45, R290). -/
def fetch (s : State) : Fetched :=
  if s.resetPin then .reset
  else if isHalted s then .halted
  else if isIdle s then fetchWord s
  else
    match busyInstr s with
    | some i => .run i s
    | none => .plain

/-- The bytes of a packet put into `BUF`, from index `i` on (R209). -/
def fillBuffer (i : Nat) (bytes : List Byte) (m : Memory) : Memory :=
  match bytes with
  | [] => m
  | b :: more => fillBuffer (i + 1) more (Memory.write m i b)

/-- Where the block finds a table row's instruction next (log 15): a host word on the command port of an idle block; a
wire format at the first micro-step of the primitive operation that performs it, with an answer of the transport
pending; a packet received in `BUF`, at the micro-step that completes `D_FRX`. -/
def placeInstruction (nbits w : Nat) (s : State) : State :=
  let bytes := tableBytes nbits w
  match tableFormat nbits w with
  | none => s
  | some .host => { s with ph := .idle, resetPin := false, offers := BitVec.ofNat 24 w :: s.offers }
  | some .registerWrite =>
    { s with
      ph := .pWr, u := 0, op := .wreg, resetPin := false, answers := .ok 0 :: s.answers
      pa := bytes.getD 0 0, pb := bytes.getD 1 0 }
  | some .registerRead =>
    { s with
      ph := .pRd, u := 0, op := .rreg, resetPin := false, answers := .ok 0 :: s.answers
      pa := bytes.getD 0 0 }
  | some .strobe =>
    { s with
      ph := .pStb, u := 0, op := .stb, resetPin := false, answers := .ok 0 :: s.answers
      pa := strobeSelector .idle }
  | some .frame =>
    { s with
      ph := .cBurst, u := 0, op := .cmd, resetPin := false, answers := .ok 0 :: s.answers
      addrHi := bytes.getD 4 0, addrLo := bytes.getD 5 0, addrValid := true
      opcLat := bytes.getD 6 0 }
  | some .packet =>
    { s with
      ph := .dFrx, u := 4, op := .disc, resetPin := false
      len := BitVec.ofNat 8 (nbits / 8), buf := fillBuffer 0 bytes s.buf }

end Sys2Proof.Machine
end

