-- ==== Sys2Proof/Machine/WireFormats.lean ====
section
/-! DEFINITION. The wire formats as instructions (log 8): a busy block performs the transaction of its phase one event
a step (R45); the meaning of a format is the micro-step `U` of that transaction with the format's operands. -/

namespace Sys2Proof.Machine

/-- One micro-step of a transaction of format `f`, where the block's phase performs one (R28, R45). -/
def transact (f : Format) (script : List Event) (s : State) : Host.Outcome State Fault Refusal :=
  if phaseFormat s.ph = some f then emitAt script completePhase s else .refused .notAtPosition

/-- WW: `WR(a, v)` (R100, R131, R132). -/
def execWw (id value : Byte) (s : State) : Host.Outcome State Fault Refusal :=
  transact .registerWrite (writeScript id value) s

/-- WR: `RD(a)`, its header `a | 0x80` (R101, R134, R135). -/
def execWr (id : BitVec 7) (s : State) : Host.Outcome State Fault Refusal :=
  transact .registerRead (readScript (readHeader (id.setWidth 8))) s

/-- WS: `STB(s)`, the code byte given (R102, R151, R152). -/
def execWs (code : Byte) (s : State) : Host.Outcome State Fault Refusal :=
  transact .strobe (strobeScript code) s

/-- WF: `BURST(F)` (R104, R106, R187). -/
def execWf (hi lo opcode : Byte) (s : State) : Host.Outcome State Fault Refusal :=
  transact .frame (burstScript (frame hi lo opcode)) s

/-- WP: a well-formed packet takes effect when `D_FRX` completes, that is at the settle of the closing FlushRx strobe:
the block stores its address and ends the DISC (R107, R216, log 9). -/
def execWp (_sync : Nat) (hi lo _x : Byte) (_rest : List Byte) (s : State) : Host.Outcome State Fault Refusal :=
  if s.ph = .dFrx ∧ s.u = 4 then emitAt (strobeScript (Config.stbCode .flushRx)) (acceptAddress hi lo) s
  else .refused .notAtPosition

end Sys2Proof.Machine
end

