-- ==== Sys2Proof/Machine/Dispatch.lean ====
section
/-! DEFINITION. The dispatch: one arm per instruction, each one direct call of its meaning. -/

namespace Sys2Proof.Machine

-- The meaning of an instruction: the Accept step of a host operation, one micro-step of a wire transaction (R45).
def exec (i : Instr) (s : State) : Host.Outcome State Fault Refusal :=
  match i with
  | .init => Sys2Proof.Machine.execInit s
  | .cmdOff => Sys2Proof.Machine.execCmdOff s
  | .cmdOn50 => Sys2Proof.Machine.execCmdOn50 s
  | .cmdOn100 => Sys2Proof.Machine.execCmdOn100 s
  | .cmdPair => Sys2Proof.Machine.execCmdPair s
  | .disc => Sys2Proof.Machine.execDisc s
  | .seta hi lo => Sys2Proof.Machine.execSeta hi lo s
  | .wreg id value => Sys2Proof.Machine.execWreg id value s
  | .rreg id => Sys2Proof.Machine.execRreg id s
  | .stbIdle => Sys2Proof.Machine.execStbIdle s
  | .stbTxen => Sys2Proof.Machine.execStbTxen s
  | .stbFtx => Sys2Proof.Machine.execStbFtx s
  | .stbReset => Sys2Proof.Machine.execStbReset s
  | .stbRxen => Sys2Proof.Machine.execStbRxen s
  | .stbFrx => Sys2Proof.Machine.execStbFrx s
  | .ww id value => Sys2Proof.Machine.execWw id value s
  | .wr id => Sys2Proof.Machine.execWr id s
  | .ws code => Sys2Proof.Machine.execWs code s
  | .wf hi lo opcode => Sys2Proof.Machine.execWf hi lo opcode s
  | .wp sync hi lo x rest => Sys2Proof.Machine.execWp sync hi lo x rest s

end Sys2Proof.Machine
end

