-- ==== Sys2Proof/Machine/Step.lean ====
section
/-! DEFINITION. One step of the block (R45), and the state in which the next step runs a given table word. -/

namespace Sys2Proof.Machine

/-- One step: `Accept(W)`, `Emit(e, ans)`, hardware reset, or none (R45, R290). A waiting block keeps its state
(log 2). -/
def step (s : State) : Host.Outcome State Fault Refusal :=
  match fetch s with
  | .reset => .next (hardwareReset s)
  | .halted => .fault .halted
  | .waiting => .next s
  | .illegal s' => .next (refuseIllegal s')
  | .run i s' => exec i s'
  | .plain => emitAt (plainScript s) completePhase s

/-- `s` with a table word where `step` finds its next instruction (log 15). -/
def State.withFetchWord (s : State) (nbits w : Nat) : State := placeInstruction nbits w s

end Sys2Proof.Machine
end

