-- ==== Sys2Proof/Machine/Runs.lean ====
section
/-! DEFINITION. The scripts of phases and of whole operations (R131, R134, R151, R166, R185, R203), and the trace a
script leaves when the transport answers every event ok. Statements about runs are made in these words; `step` does not
use them. -/

namespace Sys2Proof.Machine

/-- The script of the transaction the current phase performs (R28, third column of its table); no event at an index
that R30 or R96 excludes, and none in `PH_IDLE` and `PH_HALT`. -/
def phaseScript (s : State) : List Event :=
  match s.ph with
  | .iReset => strobeScript (Config.stbCode .reset)
  | .iTable =>
    match Config.table[s.ti]? with
    | some e => writeScript e.reg e.val
    | none => []
  | .iPower => writeScript Config.power.reg Config.power.val
  | .cIdle => strobeScript (Config.stbCode .idle)
  | .cFtx => strobeScript (Config.stbCode .flushTx)
  | .cBurst => burstScript (frame s.addrHi s.addrLo s.opcLat)
  | .cTxen => strobeScript (Config.stbCode .txEnable)
  | .cWait => [.delay delayCycle]
  | .dRxen => strobeScript (Config.stbCode .rxEnable)
  | .dCfg => writeScript Config.pktrdy.reg Config.pktrdy.val
  | .dWait => [.delay delayListen]
  | .dLen => readScript (readHeader Config.rxlenReg)
  | .dFifo => readScript (readHeader Config.fifoReg)
  | .dReport => [.reportOversize s.len]
  | .dIdle => strobeScript (Config.stbCode .idle)
  | .dFrx => strobeScript (Config.stbCode .flushRx)
  | .pWr => writeScript s.pa s.pb
  | .pRd => readScript (readHeader s.pa)
  | .pStb =>
    match strobeOfSelector s.pa with
    | some t => strobeScript (Config.stbCode t)
    | none => []
  | .idle => []
  | .halt => []

/-- The event that `POS` and the data registers determine (R27, R45). -/
def nextEvent (s : State) : Option Event := (phaseScript s)[s.u.toNat]?

/-- The script of INIT (R166). -/
def initScript : List Event :=
  strobeScript (Config.stbCode .reset) ++ (Config.table.flatMap fun e => writeScript e.reg e.val) ++
    writeScript Config.power.reg Config.power.val

/-- `CYCLE(F)`, one transmit cycle (R185, R186). -/
def cycleScript (bytes : List Byte) : List Event :=
  strobeScript (Config.stbCode .idle) ++ strobeScript (Config.stbCode .flushTx) ++ burstScript bytes ++
    strobeScript (Config.stbCode .txEnable) ++ [.delay delayCycle]

/-- `CYCLE(F)^n`; the script of CMD is `n = 50` (R185). -/
def cyclesScript (n : Nat) (bytes : List Byte) : List Event := (List.replicate n (cycleScript bytes)).flatten

/-- `LISTEN` (R203, R204). -/
def listenScript : List Event :=
  strobeScript (Config.stbCode .rxEnable) ++ writeScript Config.pktrdy.reg Config.pktrdy.val ++ [.delay delayListen]

/-- `GETLEN` (R203, R205). -/
def getLenScript : List Event := readScript (readHeader Config.rxlenReg)

/-- `GETPKT` for `n` bytes (R203, R209). -/
def getPktScript (n : Nat) : List Event := (List.replicate n (readScript (readHeader Config.fifoReg))).flatten

/-- `FLUSH` (R203, R215). -/
def flushScript : List Event :=
  strobeScript (Config.stbCode .idle) ++ strobeScript (Config.stbCode .flushRx)

/-- `ITER` for the length byte `n` (R203). -/
def iterationScript (n : Byte) : List Event :=
  listenScript ++ getLenScript ++
    (if maxPkt < n.toNat then [.reportOversize n] else getPktScript n.toNat) ++ flushScript

/-- How many events of a script the transport answers. -/
def transportEvents (script : List Event) : Nat := (script.filter needsAnswer).length

/-- The trace of a script answered ok throughout; `ys` holds one byte for each event the transport answers. -/
def okTrace (script : List Event) (ys : List Byte) : List Emitted :=
  match script with
  | [] => []
  | e :: more =>
    if needsAnswer e then
      match ys with
      | [] => []
      | y :: rest => { event := e, reply := okReply e y } :: okTrace more rest
    else { event := e, reply := okReply e 0 } :: okTrace more ys

/-- The bytes that the `RX` events of a script deliver. -/
def rxBytes (script : List Event) (ys : List Byte) : List Byte :=
  match script with
  | [] => []
  | e :: more =>
    if needsAnswer e then
      match ys with
      | [] => []
      | y :: rest => if e = .rx then y :: rxBytes more rest else rxBytes more rest
    else rxBytes more ys

/-- The state a transport failure of event `e` leaves, `rest` the answers after it: the event stands in the trace with
its `fail`, the cause and the position are saved, the response is posted, and nothing else changes (R256, R257). -/
def transportHalt (e : Event) (rest : List Answer) (s : State) : State :=
  { s with
    answers := rest, trace := s.trace ++ [{ event := e, reply := .fail }]
    cause := .transportFault, fph := s.ph.code, fu := s.u
    rsp := { status := .transportFault, d1 := 0, d0 := 0 }, rspValid := true, ph := .halt }

end Sys2Proof.Machine
end

