-- ==== Sys2Proof/Safety.lean ====
section
/-! DEFINITION. What counts as a safe state and a safe run: the invariants of R47, the ranges of the position (R28 to
R30), the bracket discipline of a trace (R137), and the one stop a run may come to. -/

namespace Sys2Proof.Machine

/-- The index of `DESEL` in a transaction's script (R132, R135, R152, R187). -/
def deselIndex (f : Format) : Nat :=
  match f with
  | .registerWrite => 4
  | .registerRead => 4
  | .strobe => 3
  | .frame => 11
  | .host => 0
  | .packet => 0

/-- The position is after a `SEL` and not after the matching `DESEL` (R47 (b)). -/
def insideBracket (s : State) : Bool :=
  match phaseFormat s.ph with
  | some f => decide (1 ≤ s.u.toNat ∧ s.u.toNat ≤ deselIndex f)
  | none => false

/-- The operation a phase belongs to (R28, second column of its table). -/
def phaseOperation (p : Phase) : Operation :=
  match p with
  | .idle => .none
  | .iReset => .init
  | .iTable => .init
  | .iPower => .init
  | .cIdle => .cmd
  | .cFtx => .cmd
  | .cBurst => .cmd
  | .cTxen => .cmd
  | .cWait => .cmd
  | .dRxen => .disc
  | .dCfg => .disc
  | .dWait => .disc
  | .dLen => .disc
  | .dFifo => .disc
  | .dReport => .disc
  | .dIdle => .disc
  | .dFrx => .disc
  | .pWr => .wreg
  | .pRd => .rreg
  | .pStb => .stb
  | .halt => .none

/-- The number of micro-steps of a phase (R29). -/
def phaseLength (p : Phase) : Nat :=
  match phaseFormat p with
  | some .registerWrite => 6
  | some .registerRead => 5
  | some .strobe => 5
  | some .frame => 12
  | some .host => 0
  | some .packet => 0
  | none => if p = .idle ∨ p = .halt then 0 else 1

/-- The invariants of R47, clause by clause. -/
structure SpecInvariant (s : State) : Prop where
  /-- (a) -/
  idle_is_quiet : s.ph = .idle → s.cs = false ∧ s.op = .none ∧ s.u = 0
  /-- (b) -/
  select_in_bracket : s.cs = true → (isBusy s = true ∧ insideBracket s = true) ∨ s.ph = .halt
  /-- (c) -/
  table_index : s.ph = .iTable → s.ti < Config.table.length
  /-- (d) -/
  transmit_cycle : phaseOperation s.ph = .cmd → s.rep.toNat ≤ 49 ∧ s.addrValid = true
  /-- (e) -/
  fifo_index : s.ph = .dFifo → 1 ≤ s.len.toNat ∧ s.len.toNat ≤ 8 ∧ s.bi.toNat < s.len.toNat
  /-- (f) -/
  report_length : s.ph = .dReport → 8 < s.len.toNat
  /-- (g) -/
  cause_iff_halted : s.cause ≠ .none ↔ s.ph = .halt
  /-- (h) -/
  validated_has_address : s.ds = .validated → s.addrValid = true

/-- The ranges of the position that R47 leaves to R28, R29 and R96, the exact value of `CS` in a busy block (R36), and
the packet buffer's canonical form. -/
structure PositionInvariant (s : State) : Prop where
  operation_of_phase : isBusy s = true → s.op = phaseOperation s.ph
  micro_step : isBusy s = true → s.u.toNat < phaseLength s.ph
  table_index : s.ph = .iTable → s.ti < Config.table.length
  strobe_selector : s.ph = .pStb → (strobeOfSelector s.pa).isSome = true
  select_exact : s.ph ≠ .halt → s.cs = insideBracket s
  buffer_form : Memory.wf s.buf = true

/-- One event read by the bracket rule of R137: whether the bracket is open after it, none where the rule is broken. A
failed event changes nothing (R257). -/
def bracketAfter (isOpen : Bool) (e : Emitted) : Option Bool :=
  match e.event with
  | .sel => if isOpen then none else some (decide (e.reply ≠ .fail))
  | .desel => if isOpen then some (decide (e.reply = .fail)) else none
  | .rdy => if isOpen then some true else none
  | .tx _ _ => if isOpen then some true else none
  | .rx => if isOpen then some true else none
  | .delay _ => if isOpen then none else some false
  | .reportOversize _ => if isOpen then none else some false

/-- A trace read by the bracket rule from its start. -/
def bracketState (isOpen : Bool) (trace : List Emitted) : Option Bool :=
  match trace with
  | [] => some isOpen
  | e :: more =>
    match bracketAfter isOpen e with
    | none => none
    | some b => bracketState b more

/-- The trace obeys R137, and its last bracket is open exactly when `CS` is 1. -/
def Bracketed (s : State) : Prop := bracketState false s.trace = some s.cs

/-- A safe outcome: the machine goes on, or it is the halted block that takes no step (R45, R256). -/
def SafeOutcome (s : State) : Prop :=
  (∃ t, step s = .next t) ∨ (step s = .fault .halted ∧ s.ph = .halt)

end Sys2Proof.Machine
end

