-- ==== Sys2Proof/Certificates/Slice0/Obligations.lean ====
section
/-! DEFINITION. The statements for the provers, taken from the numbered rules of spec/ in the order encoding, parser,
operations, wire formats, steps, runs, invariants, whole-machine rules. -/

open Sys2Proof Sys2Proof.Machine

/-! ### Encoding -/

/-- Every well-formed instruction, with every operand, is what its bytes decode to (30_encoding.md R90 to R107). -/
def Obligations.DecodeEncodeRoundTrip : Prop :=
  ∀ i : Instr, i.wellFormed = true → decode i.format (encode i) = .ok i

/-- Host words and host operations match one to one (R91, R110): each operation's 24-bit word decodes to it, and a word
that decodes is the encoding of what it decodes to, so no bit of a legal word is without meaning. -/
def Obligations.HostWordsMatchTheirEncodings : Prop :=
  (∀ i : Instr, i.format = .host → decodeWord (encodeWord i) = .ok i) ∧
  (∀ (w : HostWord) (i : Instr), decodeWord w = .ok i → encodeWord i = w ∧ i.format = .host)

/-- The illegal words are those R97 lists: a reserved `opc`, a must-be-0 field that is not 0, a selector out of
range. -/
def Obligations.IllegalWordsAreTheReservedOnes : Prop :=
  ∀ w : HostWord,
    (∃ e, decodeWord w = .error e) ↔
      (wordOpc w).toNat = 0 ∨ 8 ≤ (wordOpc w).toNat ∨
      ((wordOpc w = 0x01 ∨ wordOpc w = 0x03) ∧ (wordA w ≠ 0 ∨ wordB w ≠ 0)) ∨
      ((wordOpc w = 0x02 ∨ wordOpc w = 0x06 ∨ wordOpc w = 0x07) ∧ wordB w ≠ 0) ∨
      (wordOpc w = 0x02 ∧ 3 < (wordA w).toNat) ∨
      (wordOpc w = 0x07 ∧ 5 < (wordA w).toNat)

/-- Words written out from the table of R91 decode to the operations they stand for, and a few wire formats. -/
def Obligations.WrittenOutWordsDecode : Prop :=
  decodeWord 0x010000 = .ok .init ∧ decodeWord 0x020100 = .ok .cmdOn50 ∧ decodeWord 0x030000 = .ok .disc ∧
  decodeWord 0x040102 = .ok (.seta 0x01 0x02) ∧ decodeWord 0x050A10 = .ok (.wreg 0x0A 0x10) ∧
  decodeWord 0x063B00 = .ok (.rreg 0x3B) ∧ decodeWord 0x070300 = .ok .stbReset ∧
  decode .registerRead [0xBB] = .ok (.wr 0x3B) ∧
  decode .frame [0x7F, 0x06, 0x55, 0x01, 0x01, 0x02, 0x02, 0xAA, 0xFF] = .ok (.wf 0x01 0x02 0x02)

/-! ### Parser -/

/-- The two descriptions of a well-formed packet agree: the parser of R210 matches exactly the byte strings that the
layout of R107 reads as a packet, with the same address. -/
def Obligations.ParserAgreesWithPacketLayout : Prop :=
  ∀ (bytes : List Byte) (hi lo : Byte), bytes.length ≤ 8 →
    (parse bytes = .matched hi lo ↔
      ∃ sync x rest, decode .packet bytes = .ok (.wp sync hi lo x rest))

/-- R210 over `LEN` and `BUF`, for `1 <= LEN <= 8`: all sync, or the first byte that is not 0x55 decides. -/
def Obligations.ParserFollowsFirstNonSyncByte : Prop :=
  ∀ (len : Byte) (buf : Memory), 1 ≤ len.toNat → len.toNat ≤ 8 →
    ((∀ i, i < len.toNat → Memory.read buf i = 0x55) → verdict len buf = .allSync) ∧
    (∀ s, s < len.toNat → Memory.read buf s ≠ 0x55 → (∀ i, i < s → Memory.read buf i = 0x55) →
      verdict len buf =
        if len.toNat ≤ s + 4 then .mismatch
        else if Memory.read buf s = 0x01 ∧ Memory.read buf (s + 4) = 0xAA then
          .matched (Memory.read buf (s + 1)) (Memory.read buf (s + 2))
        else .mismatch)

/-- The branch of R206 and R223 on the whole length byte: 0 is no data, 9 to 255 is oversized, whatever the buffer
holds; 1 to 8 is parsed. -/
def Obligations.LengthByteDecidesTheBranch : Prop :=
  ∀ (len : Byte) (buf : Memory),
    (verdict len buf = .noData ↔ len = 0) ∧
    (verdict len buf = .oversize ↔ 8 < len.toNat) ∧
    (1 ≤ len.toNat → len.toNat ≤ 8 → verdict len buf = parse (received buf len.toNat))

/-- Bytes of `BUF` at `LEN` and above take part in nothing (R23, R64, R222). -/
def Obligations.VerdictIgnoresStaleBytes : Prop :=
  ∀ (len : Byte) (b c : Memory),
    (∀ i, i < len.toNat → Memory.read b i = Memory.read c i) → verdict len b = verdict len c

/-- The packets of R107: `sync` bytes 0x55, then `[0x01, hi, lo, X, 0xAA]`, then anything, within 8 bytes, are
matched with their address (R210, R214). -/
def Obligations.SyncRunThenPayloadMatches : Prop :=
  ∀ (sync : Nat) (hi lo x : Byte) (rest : List Byte), sync + 5 + rest.length ≤ 8 →
    parse (List.replicate sync 0x55 ++ [0x01, hi, lo, x, 0xAA] ++ rest) = .matched hi lo

/-! ### The host operations -/

/-- INIT: the Accept step of R165, and nothing else changes. -/
def Obligations.InitIsAccepted : Prop :=
  ∀ s : State, s.ph = .idle →
    exec .init s = .next { s with rspValid := false, op := .init, inited := false, ph := .iReset, u := 0 }

/-- CMD with an Address: the Accept step of R183, for each of the four commands. -/
def Obligations.CommandIsAccepted : Prop :=
  ∀ s : State, s.ph = .idle → s.addrValid = true →
    exec .cmdOff s = .next { s with rspValid := false, op := .cmd, opcLat := Config.opcLightOff, rep := 0, ph := .cIdle, u := 0 } ∧
    exec .cmdOn50 s = .next { s with rspValid := false, op := .cmd, opcLat := 0x02, rep := 0, ph := .cIdle, u := 0 } ∧
    exec .cmdOn100 s = .next { s with rspValid := false, op := .cmd, opcLat := Config.opcLightOn100, rep := 0, ph := .cIdle, u := 0 } ∧
    exec .cmdPair s = .next { s with rspValid := false, op := .cmd, opcLat := Config.opcPair, rep := 0, ph := .cIdle, u := 0 }

/-- CMD without an Address: the ProtocolViolation entry of R258, `halt(2, PH_IDLE, 0)`, with no event and neither
`OP`, `OPC_LAT` nor `REP` written. -/
def Obligations.CommandWithoutAddressHalts : Prop :=
  ∀ (s : State) (i : Instr), i = .cmdOff ∨ i = .cmdOn50 ∨ i = .cmdOn100 ∨ i = .cmdPair →
    s.ph = .idle → s.addrValid = false →
    exec i s = .next { s with
      cause := .protocolViolation, fph := 0, fu := 0
      rsp := { status := .protocolViolation, d1 := 0, d0 := 0 }, rspValid := true, ph := .halt }

/-- DISC: the Accept step of R201. -/
def Obligations.DiscIsAccepted : Prop :=
  ∀ s : State, s.ph = .idle →
    exec .disc s = .next { s with rspValid := false, op := .disc, it := 0, ds := .idle, ph := .dRxen, u := 0 }

/-- SETA: the whole effect of R241, in the step that accepts it. -/
def Obligations.SetaAssignsTheAddress : Prop :=
  ∀ (s : State) (hi lo : Byte), s.ph = .idle →
    exec (.seta hi lo) s = .next { s with
      addrHi := hi, addrLo := lo, addrValid := true
      rsp := { status := .ok, d1 := 0, d0 := 0 }, rspValid := true, ph := .idle, u := 0, op := .none }

/-- WREG, RREG and STB: the Accept steps of R133, R136 and R153; after STB `PA` holds the selector of R96. -/
def Obligations.PrimitiveOperationsAreAccepted : Prop :=
  ∀ (s : State) (a v : Byte), s.ph = .idle →
    exec (.wreg a v) s = .next { s with rspValid := false, op := .wreg, pa := a, pb := v, ph := .pWr, u := 0 } ∧
    exec (.rreg a) s = .next { s with rspValid := false, op := .rreg, pa := a, ph := .pRd, u := 0 } ∧
    exec .stbIdle s = .next { s with rspValid := false, op := .stb, pa := 0, ph := .pStb, u := 0 } ∧
    exec .stbTxen s = .next { s with rspValid := false, op := .stb, pa := 1, ph := .pStb, u := 0 } ∧
    exec .stbFtx s = .next { s with rspValid := false, op := .stb, pa := 2, ph := .pStb, u := 0 } ∧
    exec .stbReset s = .next { s with rspValid := false, op := .stb, pa := 3, ph := .pStb, u := 0 } ∧
    exec .stbRxen s = .next { s with rspValid := false, op := .stb, pa := 4, ph := .pStb, u := 0 } ∧
    exec .stbFrx s = .next { s with rspValid := false, op := .stb, pa := 5, ph := .pStb, u := 0 }

/-- A host operation given to a block that is not idle has no effect (R33, D2); that `exec` answers the unchanged state
there, rather than stopping, is the model's choice (log 14). -/
def Obligations.HostWordsHaveNoEffectUnlessIdle : Prop :=
  ∀ (s : State) (i : Instr), i.format = .host → s.ph ≠ .idle → exec i s = .next s

/-! ### The wire formats -/

/-- The micro-steps of WR, R132, in a phase that performs a register write; on `fail` the TransportFault entry. R132 is
about the `a` and `v` that the position names; that `exec` runs the same micro-steps for every other `a` and `v` is the
model's choice (log 8), and StepRunsTheTransactionOfItsPhase says which ones a step runs. -/
def Obligations.RegisterWriteMicroSteps : Prop :=
  ∀ (s : State) (a v : Byte), phaseFormat s.ph = some .registerWrite →
    (∀ y rest, s.answers = .ok y :: rest →
      (s.u = 0 → exec (.ww a v) s = .next { s with answers := rest, cs := true, u := 1, trace := s.trace ++ [⟨.sel, .ok⟩] }) ∧
      (s.u = 1 → exec (.ww a v) s = .next { s with answers := rest, u := 2, trace := s.trace ++ [⟨.rdy, .ok⟩] }) ∧
      (s.u = 2 → exec (.ww a v) s = .next { s with answers := rest, u := 3, trace := s.trace ++ [⟨.tx a 200, .ok⟩] }) ∧
      (s.u = 3 → exec (.ww a v) s = .next { s with answers := rest, u := 4, trace := s.trace ++ [⟨.tx v 200, .ok⟩] }) ∧
      (s.u = 4 → exec (.ww a v) s = .next { s with answers := rest, cs := false, u := 5, trace := s.trace ++ [⟨.desel, .ok⟩] })) ∧
    (s.u = 5 → exec (.ww a v) s = .next (completePhase { s with trace := s.trace ++ [⟨.delay 200, .ok⟩] })) ∧
    (∀ rest, s.answers = .fail :: rest →
      (s.u = 0 → exec (.ww a v) s = .next (transportHalt .sel rest s)) ∧
      (s.u = 1 → exec (.ww a v) s = .next (transportHalt .rdy rest s)) ∧
      (s.u = 2 → exec (.ww a v) s = .next (transportHalt (.tx a 200) rest s)) ∧
      (s.u = 3 → exec (.ww a v) s = .next (transportHalt (.tx v 200) rest s)) ∧
      (s.u = 4 → exec (.ww a v) s = .next (transportHalt .desel rest s)))

/-- The micro-steps of RD, R135, in a phase that performs a register read; the header is `a`, bits 6:0 of the id, with
the read bit. R135 is about the id that the position names; that `exec` runs the same micro-steps for every other id is
the model's choice (log 8), and StepRunsTheTransactionOfItsPhase says which one a step runs. -/
def Obligations.RegisterReadMicroSteps : Prop :=
  ∀ (s : State) (a : BitVec 7), phaseFormat s.ph = some .registerRead →
    (∀ y rest, s.answers = .ok y :: rest →
      (s.u = 0 → exec (.wr a) s = .next { s with answers := rest, cs := true, u := 1, trace := s.trace ++ [⟨.sel, .ok⟩] }) ∧
      (s.u = 1 → exec (.wr a) s = .next { s with answers := rest, u := 2, trace := s.trace ++ [⟨.rdy, .ok⟩] }) ∧
      (s.u = 2 → exec (.wr a) s = .next { s with answers := rest, u := 3, trace := s.trace ++ [⟨.tx (a.setWidth 8 ||| 0x80) 0, .ok⟩] }) ∧
      (s.u = 3 → exec (.wr a) s = .next { s with answers := rest, rdata := y, u := 4, trace := s.trace ++ [⟨.rx, .byte y⟩] }) ∧
      (s.u = 4 → exec (.wr a) s = .next (completePhase { s with answers := rest, cs := false, trace := s.trace ++ [⟨.desel, .ok⟩] }))) ∧
    (∀ rest, s.answers = .fail :: rest →
      (s.u = 0 → exec (.wr a) s = .next (transportHalt .sel rest s)) ∧
      (s.u = 1 → exec (.wr a) s = .next (transportHalt .rdy rest s)) ∧
      (s.u = 2 → exec (.wr a) s = .next (transportHalt (.tx (a.setWidth 8 ||| 0x80) 0) rest s)) ∧
      (s.u = 3 → exec (.wr a) s = .next (transportHalt .rx rest s)) ∧
      (s.u = 4 → exec (.wr a) s = .next (transportHalt .desel rest s)))

/-- The micro-steps of STB, R152, in a phase that performs a strobe, with code byte `c`. R152 sends `STB_CODE[s]` for
the strobe that the position names; that `exec` runs the same micro-steps for every other byte is the model's choice
(log 8), and StepRunsTheTransactionOfItsPhase says which one a step runs. -/
def Obligations.StrobeMicroSteps : Prop :=
  ∀ (s : State) (c : Byte), phaseFormat s.ph = some .strobe →
    (∀ y rest, s.answers = .ok y :: rest →
      (s.u = 0 → exec (.ws c) s = .next { s with answers := rest, cs := true, u := 1, trace := s.trace ++ [⟨.sel, .ok⟩] }) ∧
      (s.u = 1 → exec (.ws c) s = .next { s with answers := rest, u := 2, trace := s.trace ++ [⟨.rdy, .ok⟩] }) ∧
      (s.u = 2 → exec (.ws c) s = .next { s with answers := rest, u := 3, trace := s.trace ++ [⟨.tx c 0, .ok⟩] }) ∧
      (s.u = 3 → exec (.ws c) s = .next { s with answers := rest, cs := false, u := 4, trace := s.trace ++ [⟨.desel, .ok⟩] })) ∧
    (s.u = 4 → exec (.ws c) s = .next (completePhase { s with trace := s.trace ++ [⟨.delay 20000, .ok⟩] })) ∧
    (∀ rest, s.answers = .fail :: rest →
      (s.u = 0 → exec (.ws c) s = .next (transportHalt .sel rest s)) ∧
      (s.u = 1 → exec (.ws c) s = .next (transportHalt .rdy rest s)) ∧
      (s.u = 2 → exec (.ws c) s = .next (transportHalt (.tx c 0) rest s)) ∧
      (s.u = 3 → exec (.ws c) s = .next (transportHalt .desel rest s)))

/-- The micro-steps of BURST, the third row of R187: `SEL`, `RDY`, the byte `F[U - 2]` at `U` 2 to 10, `DESEL`. R187 is
about the frame of `ADDR_HI`, `ADDR_LO` and `OPC_LAT`; that `exec` runs the same micro-steps for every other frame is the
model's choice (log 8), and StepRunsTheTransactionOfItsPhase says which one a step runs. -/
def Obligations.BurstMicroSteps : Prop :=
  ∀ (s : State) (hi lo opc : Byte), phaseFormat s.ph = some .frame →
    (∀ y rest, s.answers = .ok y :: rest →
      (s.u = 0 → exec (.wf hi lo opc) s = .next { s with answers := rest, cs := true, u := 1, trace := s.trace ++ [⟨.sel, .ok⟩] }) ∧
      (s.u = 1 → exec (.wf hi lo opc) s = .next { s with answers := rest, u := 2, trace := s.trace ++ [⟨.rdy, .ok⟩] }) ∧
      (∀ b, 2 ≤ s.u.toNat → s.u.toNat ≤ 10 →
        [0x7F, 0x06, 0x55, 0x01, hi, lo, opc, 0xAA, 0xFF][s.u.toNat - 2]? = some b →
        exec (.wf hi lo opc) s = .next { s with answers := rest, u := s.u + 1, trace := s.trace ++ [⟨.tx b 0, .ok⟩] }) ∧
      (s.u = 11 → exec (.wf hi lo opc) s = .next (completePhase { s with answers := rest, cs := false, trace := s.trace ++ [⟨.desel, .ok⟩] }))) ∧
    (∀ rest, s.answers = .fail :: rest →
      (s.u = 0 → exec (.wf hi lo opc) s = .next (transportHalt .sel rest s)) ∧
      (s.u = 1 → exec (.wf hi lo opc) s = .next (transportHalt .rdy rest s)) ∧
      (∀ b, 2 ≤ s.u.toNat → s.u.toNat ≤ 10 →
        [0x7F, 0x06, 0x55, 0x01, hi, lo, opc, 0xAA, 0xFF][s.u.toNat - 2]? = some b →
        exec (.wf hi lo opc) s = .next (transportHalt (.tx b 0) rest s)) ∧
      (s.u = 11 → exec (.wf hi lo opc) s = .next (transportHalt .desel rest s)))

/-- A well-formed packet where `D_FRX` completes: the effect of R216, after the settle of the closing strobe. That this
step is the meaning of a packet is the model's choice (log 9). -/
def Obligations.PacketStoresItsAddress : Prop :=
  ∀ (s : State) (sync : Nat) (hi lo x : Byte) (rest : List Byte), s.ph = .dFrx → s.u = 4 →
    exec (.wp sync hi lo x rest) s = .next { s with
      trace := s.trace ++ [⟨.delay 20000, .ok⟩]
      addrHi := hi, addrLo := lo, addrValid := true, lastv := .matched, ds := .validated
      rsp := { status := .ok, d1 := hi, d0 := lo }, rspValid := true, ph := .idle, u := 0, op := .none }

/-- A wire format where the block's phase performs no transaction of that format is not run: `POS` alone says which
event is next (R45). That it is a refusal by name is the model's choice (log 8). -/
def Obligations.WireFormatsRunOnlyAtTheirPosition : Prop :=
  ∀ s : State,
    (phaseFormat s.ph ≠ some .registerWrite → ∀ a v, exec (.ww a v) s = .refused .notAtPosition) ∧
    (phaseFormat s.ph ≠ some .registerRead → ∀ a, exec (.wr a) s = .refused .notAtPosition) ∧
    (phaseFormat s.ph ≠ some .strobe → ∀ c, exec (.ws c) s = .refused .notAtPosition) ∧
    (phaseFormat s.ph ≠ some .frame → ∀ hi lo c, exec (.wf hi lo c) s = .refused .notAtPosition) ∧
    (¬ (s.ph = .dFrx ∧ s.u = 4) → ∀ n hi lo x r, exec (.wp n hi lo x r) s = .refused .notAtPosition)

/-- A wire format that runs but cannot go on: without an answer of the transport it waits (R45, R140), which the model
writes as the state as it was (log 3); past the last micro-step of its transaction (R29) there is no event, which the
model answers with the fault `badPosition` (log 12). That both hold for operands off the position too is log 8. -/
def Obligations.WireFormatsWaitOrNameTheirStop : Prop :=
  ∀ s : State,
    (phaseFormat s.ph = some .registerWrite → ∀ a v,
      (s.u.toNat ≤ 4 → s.answers = [] → exec (.ww a v) s = .next s) ∧
      (6 ≤ s.u.toNat → exec (.ww a v) s = .fault .badPosition)) ∧
    (phaseFormat s.ph = some .registerRead → ∀ a,
      (s.u.toNat ≤ 4 → s.answers = [] → exec (.wr a) s = .next s) ∧
      (5 ≤ s.u.toNat → exec (.wr a) s = .fault .badPosition)) ∧
    (phaseFormat s.ph = some .strobe → ∀ c,
      (s.u.toNat ≤ 3 → s.answers = [] → exec (.ws c) s = .next s) ∧
      (5 ≤ s.u.toNat → exec (.ws c) s = .fault .badPosition)) ∧
    (phaseFormat s.ph = some .frame → ∀ hi lo c,
      (s.u.toNat ≤ 11 → s.answers = [] → exec (.wf hi lo c) s = .next s) ∧
      (12 ≤ s.u.toNat → exec (.wf hi lo c) s = .fault .badPosition))

/-! ### One step -/

/-- An idle block runs the instruction that the word on its port decodes to; the word leaves the port (R33, R45). -/
def Obligations.StepRunsTheDecodedWord : Prop :=
  ∀ (s : State) (w : HostWord) (rest : List HostWord) (i : Instr),
    s.resetPin = false → s.ph = .idle → s.offers = w :: rest → decodeWord w = .ok i →
    step s = exec i { s with offers := rest }

/-- A busy block runs the transaction that the table of R28 gives its phase (R27, R45), phase by phase: as a wire
instruction with the operands of the position, or as the single event of `C_WAIT`, `D_WAIT` and `D_REPORT`. That the
transactions are instructions is the model's choice (log 8). At the last micro-step of `D_FRX` a received packet that
decodes is the instruction instead of the strobe, the model's choice too (log 9). An index outside R29, R30 or R96 names
no event, which the model answers with the fault `badPosition` (log 12). -/
def Obligations.StepRunsTheTransactionOfItsPhase : Prop :=
  ∀ s : State, s.resetPin = false →
    (s.ph = .iReset → step s = exec (.ws (Config.stbCode .reset)) s) ∧
    (s.ph = .iTable →
      (∀ e, Config.table[s.ti]? = some e → step s = exec (.ww e.reg e.val) s) ∧
      (Config.table.length ≤ s.ti → step s = .fault .badPosition)) ∧
    (s.ph = .iPower → step s = exec (.ww Config.power.reg Config.power.val) s) ∧
    (s.ph = .cIdle → step s = exec (.ws (Config.stbCode .idle)) s) ∧
    (s.ph = .cFtx → step s = exec (.ws (Config.stbCode .flushTx)) s) ∧
    (s.ph = .cBurst → step s = exec (.wf s.addrHi s.addrLo s.opcLat) s) ∧
    (s.ph = .cTxen → step s = exec (.ws (Config.stbCode .txEnable)) s) ∧
    (s.ph = .cWait →
      (s.u = 0 → step s = .next (completePhase { s with trace := s.trace ++ [⟨.delay 10, .ok⟩] })) ∧
      (s.u ≠ 0 → step s = .fault .badPosition)) ∧
    (s.ph = .dRxen → step s = exec (.ws (Config.stbCode .rxEnable)) s) ∧
    (s.ph = .dCfg → step s = exec (.ww Config.pktrdy.reg Config.pktrdy.val) s) ∧
    (s.ph = .dWait →
      (s.u = 0 → step s = .next (completePhase { s with trace := s.trace ++ [⟨.delay 200, .ok⟩] })) ∧
      (s.u ≠ 0 → step s = .fault .badPosition)) ∧
    (s.ph = .dLen → step s = exec (.wr (Config.rxlenReg.setWidth 7)) s) ∧
    (s.ph = .dFifo → step s = exec (.wr (Config.fifoReg.setWidth 7)) s) ∧
    (s.ph = .dReport →
      (s.u = 0 → step s = .next (completePhase { s with trace := s.trace ++ [⟨.reportOversize s.len, .ok⟩] })) ∧
      (s.u ≠ 0 → step s = .fault .badPosition)) ∧
    (s.ph = .dIdle → step s = exec (.ws (Config.stbCode .idle)) s) ∧
    (s.ph = .dFrx →
      (∀ i, s.u = 4 → s.len.toNat ≤ 8 → decode .packet (received s.buf s.len.toNat) = .ok i → step s = exec i s) ∧
      ((s.u ≠ 4 ∨ 8 < s.len.toNat ∨ ∀ i, decode .packet (received s.buf s.len.toNat) ≠ .ok i) →
        step s = exec (.ws (Config.stbCode .flushRx)) s)) ∧
    (s.ph = .pWr → step s = exec (.ww s.pa s.pb) s) ∧
    (s.ph = .pRd → step s = exec (.wr (s.pa.setWidth 7)) s) ∧
    (s.ph = .pStb →
      (∀ k, s.pa = strobeSelector k → step s = exec (.ws (Config.stbCode k)) s) ∧
      (5 < s.pa.toNat → step s = .fault .badPosition))

/-- The received packet is the instruction that a matching `D_FRX` ends with: the bytes that arrived decode to it. That
a packet is an instruction at this point is the model's choice (log 9). -/
def Obligations.StepRunsTheReceivedPacket : Prop :=
  ∀ (s : State) (i : Instr), s.resetPin = false → s.ph = .dFrx → s.u = 4 → s.len.toNat ≤ 8 →
    decode .packet (received s.buf s.len.toNat) = .ok i → step s = exec i s

/-- An illegal word: the response of R261 and nothing else; no event, the block stays idle. -/
def Obligations.IllegalWordIsRefusedInPlace : Prop :=
  ∀ (s : State) (w : HostWord) (rest : List HostWord) (e : DecodeError),
    s.resetPin = false → s.ph = .idle → s.offers = w :: rest → decodeWord w = .error e →
    step s = .next { s with
      offers := rest, rsp := { status := .illegalOp, d1 := 0, d0 := 0 }, rspValid := true }

/-- `Emit(e, ok)` and the wait for an answer (R45, R140): a busy block emits the event of its position, `CS` and
`RDATA` are updated, then `U` moves on or the phase completes; without an answer it waits, which the model writes as the
state as it was (log 3). -/
def Obligations.BusyStepEmitsTheEventOfItsPosition : Prop :=
  ∀ (s : State) (e : Event), s.resetPin = false → nextEvent s = some e →
    (needsAnswer e = true → ∀ y rest, s.answers = .ok y :: rest →
      step s = .next (moveOn (phaseScript s) completePhase { s with
        answers := rest, cs := csAfter e s.cs, rdata := rdataAfter e y s.rdata
        trace := s.trace ++ [⟨e, okReply e y⟩] })) ∧
    (needsAnswer e = false →
      step s = .next (moveOn (phaseScript s) completePhase { s with trace := s.trace ++ [⟨e, .ok⟩] })) ∧
    (needsAnswer e = true → s.answers = [] → step s = .next s)

/-- TransportFault entry (R257), at any event of any operation that the transport answers fail. -/
def Obligations.TransportFailureHalts : Prop :=
  ∀ (s : State) (e : Event) (rest : List Answer), s.resetPin = false → nextEvent s = some e →
    needsAnswer e = true → s.answers = .fail :: rest → step s = .next (transportHalt e rest s)

/-- "In `PH_HALT` no step is enabled" (R45), whatever the host offers; only hardware reset leaves it (R256, R290). That
`step` answers the fault `halted` there is the model's choice (log 11). -/
def Obligations.HaltedBlockTakesNoStep : Prop :=
  ∀ s : State, s.ph = .halt →
    (s.resetPin = false → step s = .fault .halted) ∧
    (s.resetPin = true → ∃ t, step s = .next t ∧ t.ph = .idle)

/-- Hardware reset (R290, R291): from any state every element has its reset value, and no event is emitted. That the
reset input is a pin that one step reads is the model's choice (log 5). -/
def Obligations.HardwareResetGivesResetValues : Prop :=
  ∀ s : State, s.resetPin = true → ∃ t, step s = .next t ∧
    t.trace = s.trace ∧
    t.addrValid = false ∧ t.len = 0 ∧ t.op = .none ∧ t.ph = .idle ∧ t.u = 0 ∧ t.ti = 0 ∧ t.rep = 0 ∧ t.bi = 0 ∧
    t.it = 0 ∧ t.inited = false ∧ t.ovs = false ∧ t.cs = false ∧ t.cause = .none ∧ t.fph = 0 ∧ t.fu = 0 ∧
    t.lastv = .none ∧ t.ds = .idle ∧ t.rsp = { status := .ok, d1 := 0, d0 := 0 } ∧ t.rspValid = false

/-- The state after reset holds the values that R46 states; the elements it leaves unspecified are not mentioned. -/
def Obligations.ResetStateHoldsStatedValues : Prop :=
  State.reset.addrValid = false ∧ State.reset.len = 0 ∧ State.reset.op = .none ∧ State.reset.ph = .idle ∧
  State.reset.u = 0 ∧ State.reset.ti = 0 ∧ State.reset.rep = 0 ∧ State.reset.bi = 0 ∧ State.reset.it = 0 ∧
  State.reset.inited = false ∧ State.reset.ovs = false ∧ State.reset.cs = false ∧ State.reset.cause = .none ∧
  State.reset.fph = 0 ∧ State.reset.fu = 0 ∧ State.reset.lastv = .none ∧ State.reset.ds = .idle ∧
  State.reset.rsp = { status := .ok, d1 := 0, d0 := 0 } ∧ State.reset.rspValid = false ∧
  statusByte State.reset = 0x00

/-- What the host sees as numbers: the STATUS vector, bit by bit (R41); the codes of `OP` and `PH` (R28, `FPH` shows the
latter), `CAUSE` (R37), `LASTV` (R38), `DS` (R39) and of a response's status (R99); the 20-bit response word (R98). -/
def Obligations.StatusVectorBits : Prop :=
  (∀ s : State,
    (statusByte s).getLsbD 0 = isBusy s ∧ (statusByte s).getLsbD 1 = isHalted s ∧
    (statusByte s).getLsbD 2 = s.addrValid ∧ (statusByte s).getLsbD 3 = s.inited ∧
    (statusByte s).getLsbD 4 = s.ovs ∧ (statusByte s).getLsbD 5 = s.cs ∧
    (statusByte s).getLsbD 6 = s.rspValid ∧ (statusByte s).getLsbD 7 = false ∧
    (isBusy s = true ↔ s.ph ≠ .idle ∧ s.ph ≠ .halt) ∧ (isHalted s = true ↔ s.ph = .halt)) ∧
  [Operation.none, .init, .cmd, .disc, .seta, .wreg, .rreg, .stb].map Operation.code = [0, 1, 2, 3, 4, 5, 6, 7] ∧
  [Phase.idle, .iReset, .iTable, .iPower].map Phase.code = [0, 1, 2, 3] ∧
  [Phase.cIdle, .cFtx, .cBurst, .cTxen, .cWait].map Phase.code = [4, 5, 6, 7, 8] ∧
  [Phase.dRxen, .dCfg, .dWait, .dLen, .dFifo, .dReport, .dIdle, .dFrx].map Phase.code =
    [9, 10, 11, 12, 13, 14, 15, 16] ∧
  [Phase.pWr, .pRd, .pStb, .halt].map Phase.code = [17, 18, 19, 31] ∧
  [Cause.none, .transportFault, .protocolViolation].map Cause.code = [0, 1, 2] ∧
  [LastVerdict.none, .noData, .oversize, .allSync, .mismatch, .matched].map LastVerdict.code = [0, 1, 2, 3, 4, 5] ∧
  [DiscState.idle, .listening, .pending, .validated].map DiscState.code = [0, 1, 2, 3] ∧
  [Status.ok, .transportFault, .protocolViolation, .illegalOp, .discExhausted].map Status.code = [0, 1, 2, 3, 4] ∧
  (∀ r : Response, r.word.extractLsb 19 16 = r.status.code ∧ r.word.extractLsb 15 8 = r.d1 ∧
    r.word.extractLsb 7 0 = r.d0)

/-- The read header (R139): a bitwise OR with 0x80, so ids that differ only in bit 7 give one header and an id with
bit 7 set is its own header. -/
def Obligations.ReadHeaderSetsBitSeven : Prop :=
  ∀ a : Byte, readHeader a = a ||| 0x80 ∧ (0x80 ≤ a.toNat → readHeader a = a) ∧
    (a.toNat < 0x80 → (readHeader a).toNat = a.toNat + 0x80)

/-! ### Phase tables -/

/-- The phase table of INIT (R167): each phase's transaction and its phase-completion action. -/
def Obligations.InitPhaseTable : Prop :=
  ∀ s : State,
    (s.ph = .iReset →
      phaseScript s = strobeScript (Config.stbCode .reset) ∧
      (0 < Config.table.length → completePhase s = { s with ti := 0, ph := .iTable, u := 0 }) ∧
      (Config.table.length = 0 → completePhase s = { s with ph := .iPower, u := 0 })) ∧
    (s.ph = .iTable →
      (∀ e, Config.table[s.ti]? = some e → phaseScript s = writeScript e.reg e.val) ∧
      (s.ti + 1 < Config.table.length → completePhase s = { s with ti := s.ti + 1, ph := .iTable, u := 0 }) ∧
      (Config.table.length ≤ s.ti + 1 → completePhase s = { s with ph := .iPower, u := 0 })) ∧
    (s.ph = .iPower →
      phaseScript s = writeScript Config.power.reg Config.power.val ∧
      completePhase s = { s with
        inited := true, rsp := { status := .ok, d1 := 0, d0 := 0 }, rspValid := true, ph := .idle, u := 0, op := .none })

/-- The phase table of CMD (R187). -/
def Obligations.CommandPhaseTable : Prop :=
  ∀ s : State,
    (s.ph = .cIdle →
      phaseScript s = strobeScript (Config.stbCode .idle) ∧ completePhase s = { s with ph := .cFtx, u := 0 }) ∧
    (s.ph = .cFtx →
      phaseScript s = strobeScript (Config.stbCode .flushTx) ∧ completePhase s = { s with ph := .cBurst, u := 0 }) ∧
    (s.ph = .cBurst →
      phaseScript s = [.sel, .rdy, .tx 0x7F 0, .tx 0x06 0, .tx 0x55 0, .tx 0x01 0, .tx s.addrHi 0, .tx s.addrLo 0,
        .tx s.opcLat 0, .tx 0xAA 0, .tx 0xFF 0, .desel] ∧
      completePhase s = { s with ph := .cTxen, u := 0 }) ∧
    (s.ph = .cTxen →
      phaseScript s = strobeScript (Config.stbCode .txEnable) ∧ completePhase s = { s with ph := .cWait, u := 0 }) ∧
    (s.ph = .cWait →
      phaseScript s = [.delay 10] ∧
      (s.rep.toNat + 1 < 50 → completePhase s = { s with rep := s.rep + 1, ph := .cIdle, u := 0 }) ∧
      (50 ≤ s.rep.toNat + 1 → completePhase s = { s with
        rsp := { status := .ok, d1 := 0, d0 := 0 }, rspValid := true, ph := .idle, u := 0, op := .none }))

/-- The phase table of DISC (R220), all but the end of an iteration. The write of `D_FIFO` is to `BUF[BI]`: every other
index reads as before. -/
def Obligations.DiscoveryPhaseTable : Prop :=
  ∀ s : State,
    (s.ph = .dRxen →
      phaseScript s = strobeScript (Config.stbCode .rxEnable) ∧
      completePhase s = { s with ds := .listening, ph := .dCfg, u := 0 }) ∧
    (s.ph = .dCfg →
      phaseScript s = writeScript Config.pktrdy.reg Config.pktrdy.val ∧
      completePhase s = { s with ph := .dWait, u := 0 }) ∧
    (s.ph = .dWait → phaseScript s = [.delay 200] ∧ completePhase s = { s with ph := .dLen, u := 0 }) ∧
    (s.ph = .dLen →
      phaseScript s = readScript (Config.rxlenReg ||| 0x80) ∧
      (s.rdata = 0 → completePhase s = { s with len := s.rdata, ph := .dIdle, u := 0 }) ∧
      (8 < s.rdata.toNat → completePhase s = { s with len := s.rdata, ph := .dReport, u := 0 }) ∧
      (1 ≤ s.rdata.toNat → s.rdata.toNat ≤ 8 →
        completePhase s = { s with len := s.rdata, bi := 0, ds := .pending, ph := .dFifo, u := 0 })) ∧
    (s.ph = .dFifo →
      phaseScript s = readScript (Config.fifoReg ||| 0x80) ∧
      Memory.read (completePhase s).buf s.bi.toNat = s.rdata ∧
      (∀ i, i ≠ s.bi.toNat → Memory.read (completePhase s).buf i = Memory.read s.buf i) ∧
      (s.bi.toNat + 1 < s.len.toNat →
        completePhase s = { s with buf := (completePhase s).buf, bi := s.bi + 1, ph := .dFifo, u := 0 }) ∧
      (s.len.toNat ≤ s.bi.toNat + 1 →
        completePhase s = { s with buf := (completePhase s).buf, ph := .dIdle, u := 0 })) ∧
    (s.ph = .dReport →
      phaseScript s = [.reportOversize s.len] ∧ completePhase s = { s with ovs := true, ph := .dIdle, u := 0 }) ∧
    (s.ph = .dIdle →
      phaseScript s = strobeScript (Config.stbCode .idle) ∧ completePhase s = { s with ph := .dFrx, u := 0 }) ∧
    (s.ph = .dFrx → phaseScript s = strobeScript (Config.stbCode .flushRx))

/-- The end of a discovery iteration (R216, R217): a match stores the Address and completes; any other verdict starts
the next iteration, or ends the DISC at a finite `DISC_LIMIT`, and leaves the Address. -/
def Obligations.DiscoveryIterationEnds : Prop :=
  ∀ s : State, s.ph = .dFrx →
    (∀ hi lo, verdict s.len s.buf = .matched hi lo →
      completePhase s = { s with
        addrHi := hi, addrLo := lo, addrValid := true, lastv := .matched, ds := .validated
        rsp := { status := .ok, d1 := hi, d0 := lo }, rspValid := true, ph := .idle, u := 0, op := .none }) ∧
    ((∀ hi lo, verdict s.len s.buf ≠ .matched hi lo) →
      ((∃ limit, Config.discLimit = some limit ∧ limit.val ≤ s.it + 1) →
        completePhase s = { s with
          lastv := (verdict s.len s.buf).last, ds := .idle, it := s.it + 1
          rsp := { status := .discExhausted, d1 := 0, d0 := 0 }, rspValid := true, ph := .idle, u := 0, op := .none }) ∧
      ((∀ limit, Config.discLimit = some limit → s.it + 1 < limit.val) →
        completePhase s = { s with
          lastv := (verdict s.len s.buf).last, ds := .idle, it := s.it + 1, ph := .dRxen, u := 0 }))

/-- The three one-phase operations end (R133, R136, R153): RREG delivers the byte read, the others nothing. -/
def Obligations.PrimitiveOperationsEnd : Prop :=
  ∀ s : State,
    (s.ph = .pWr →
      phaseScript s = writeScript s.pa s.pb ∧
      completePhase s = { s with
        rsp := { status := .ok, d1 := 0, d0 := 0 }, rspValid := true, ph := .idle, u := 0, op := .none }) ∧
    (s.ph = .pRd →
      phaseScript s = readScript (s.pa ||| 0x80) ∧
      completePhase s = { s with
        rsp := { status := .ok, d1 := 0, d0 := s.rdata }, rspValid := true, ph := .idle, u := 0, op := .none }) ∧
    (s.ph = .pStb →
      (∀ t, s.pa = strobeSelector t → phaseScript s = strobeScript (Config.stbCode t)) ∧
      completePhase s = { s with
        rsp := { status := .ok, d1 := 0, d0 := 0 }, rspValid := true, ph := .idle, u := 0, op := .none })

/-! ### Runs -/

/-- The phase table and the script agree event for event: a busy block at micro-step 0, its transport answering ok,
emits exactly its phase's script, one event a step, and then completes the phase. -/
def Obligations.PhaseRunsItsScript : Prop :=
  ∀ (s : State) (ys : List Byte) (rest : List Answer),
    s.resetPin = false → isBusy s = true → s.u = 0 → phaseScript s ≠ [] →
    ys.length = transportEvents (phaseScript s) → s.answers = ys.map .ok ++ rest →
    ∃ t, core.run (phaseScript s).length s = .next (completePhase t) ∧
      t = { s with
        u := BitVec.ofNat 4 ((phaseScript s).length - 1), answers := rest
        trace := s.trace ++ okTrace (phaseScript s) ys
        cs := (phaseScript s).foldl (fun c e => csAfter e c) s.cs
        rdata := (rxBytes (phaseScript s) ys).getLastD s.rdata }

/-- WREG from its word to its response (R131, R133): the six events of `WR(a, v)`. -/
def Obligations.WregRunsItsTransaction : Prop :=
  ∀ (s : State) (a v : Byte) (w : HostWord) (words : List HostWord) (ys : List Byte) (rest : List Answer),
    s.resetPin = false → s.ph = .idle → decodeWord w = .ok (.wreg a v) → s.offers = w :: words →
    ys.length = 5 → s.answers = ys.map .ok ++ rest →
    core.run 7 s = .next { s with
      offers := words, answers := rest, pa := a, pb := v, cs := false, op := .none, u := 0
      trace := s.trace ++ [⟨.sel, .ok⟩, ⟨.rdy, .ok⟩, ⟨.tx a 200, .ok⟩, ⟨.tx v 200, .ok⟩, ⟨.desel, .ok⟩, ⟨.delay 200, .ok⟩]
      rsp := { status := .ok, d1 := 0, d0 := 0 }, rspValid := true }

/-- RREG from its word to its response (R134, R136): the five events of `RD(a)`, and the byte read delivered. -/
def Obligations.RregReturnsTheByteRead : Prop :=
  ∀ (s : State) (a y y0 y1 y2 y4 : Byte) (w : HostWord) (words : List HostWord) (rest : List Answer),
    s.resetPin = false → s.ph = .idle → decodeWord w = .ok (.rreg a) → s.offers = w :: words →
    s.answers = .ok y0 :: .ok y1 :: .ok y2 :: .ok y :: .ok y4 :: rest →
    core.run 6 s = .next { s with
      offers := words, answers := rest, pa := a, rdata := y, cs := false, op := .none, u := 0
      trace := s.trace ++ [⟨.sel, .ok⟩, ⟨.rdy, .ok⟩, ⟨.tx (a ||| 0x80) 0, .ok⟩, ⟨.rx, .byte y⟩, ⟨.desel, .ok⟩]
      rsp := { status := .ok, d1 := 0, d0 := y }, rspValid := true }

/-- STB from its word to its response (R151, R153), for each of the six strobes. -/
def Obligations.StbSendsItsStrobe : Prop :=
  ∀ (s : State) (t : Strobe) (i : Instr) (w : HostWord) (words : List HostWord) (ys : List Byte) (rest : List Answer),
    (t, i) ∈ [(Strobe.idle, Instr.stbIdle), (.txEnable, .stbTxen), (.flushTx, .stbFtx), (.reset, .stbReset),
      (.rxEnable, .stbRxen), (.flushRx, .stbFrx)] →
    s.resetPin = false → s.ph = .idle → decodeWord w = .ok i → s.offers = w :: words →
    ys.length = 4 → s.answers = ys.map .ok ++ rest →
    core.run 6 s = .next { s with
      offers := words, answers := rest, pa := strobeSelector t, cs := false, op := .none, u := 0
      trace := s.trace ++ [⟨.sel, .ok⟩, ⟨.rdy, .ok⟩, ⟨.tx (Config.stbCode t) 0, .ok⟩, ⟨.desel, .ok⟩, ⟨.delay 20000, .ok⟩]
      rsp := { status := .ok, d1 := 0, d0 := 0 }, rspValid := true }

/-- INIT from its word to its response, for a table of any length (R165 to R170): the Reset strobe, every entry in
order, the power write; `5 + 6 * N_CFG + 6` events. -/
def Obligations.InitReplaysTheTable : Prop :=
  ∀ (s : State) (w : HostWord) (words : List HostWord) (ys : List Byte) (rest : List Answer),
    s.resetPin = false → s.ph = .idle → decodeWord w = .ok .init → s.offers = w :: words →
    ys.length = 9 + 5 * Config.table.length → s.answers = ys.map .ok ++ rest →
    initScript.length = 5 + 6 * Config.table.length + 6 ∧
    core.run (1 + initScript.length) s = .next { s with
      offers := words, answers := rest, inited := true, cs := false, op := .none, u := 0
      ti := if Config.table.length = 0 then s.ti else Config.table.length - 1
      trace := s.trace ++ initScript.map fun e => ⟨e, .ok⟩
      rsp := { status := .ok, d1 := 0, d0 := 0 }, rspValid := true }

/-- CMD from its word to its response (R183 to R190): exactly 50 transmit cycles, 1400 events, every cycle the same
frame; nothing is read from the chip. -/
def Obligations.CommandSendsFiftyCycles : Prop :=
  ∀ (s : State) (c : Command) (i : Instr) (w : HostWord) (words : List HostWord) (ys : List Byte) (rest : List Answer),
    (c, i) ∈ [(Command.lightOff, Instr.cmdOff), (.lightOn50, .cmdOn50), (.lightOn100, .cmdOn100), (.pair, .cmdPair)] →
    s.resetPin = false → s.ph = .idle → s.addrValid = true →
    decodeWord w = .ok i → s.offers = w :: words → ys.length = 1200 → s.answers = ys.map .ok ++ rest →
    (cyclesScript 50 (frame s.addrHi s.addrLo (commandOpcode c))).length = 1400 ∧
    core.run (1 + 1400) s = .next { s with
      offers := words, answers := rest, opcLat := commandOpcode c, rep := 49, cs := false, op := .none, u := 0
      trace := s.trace ++ (cyclesScript 50 (frame s.addrHi s.addrLo (commandOpcode c))).map fun e => ⟨e, .ok⟩
      rsp := { status := .ok, d1 := 0, d0 := 0 }, rspValid := true }

/-- One discovery iteration from its first event (R203, R206 to R217): `n` the length byte and `bytes` the FIFO bytes
that the transport delivers; the events are those of `ITER`, and the verdict on `bytes` decides how it ends. -/
def Obligations.DiscoveryIterationRuns : Prop :=
  ∀ (s : State) (n : Byte) (bytes ys : List Byte) (rest : List Answer),
    s.resetPin = false → s.ph = .dRxen → s.u = 0 →
    ys.length = transportEvents (iterationScript n) → rxBytes (iterationScript n) ys = n :: bytes →
    s.answers = ys.map .ok ++ rest →
    ∃ t, core.run (iterationScript n).length s = .next t ∧
      t.trace = s.trace ++ okTrace (iterationScript n) ys ∧ t.answers = rest ∧ t.offers = s.offers ∧
      t.cs = false ∧ t.len = n ∧ t.ovs = (s.ovs || decide (8 < n.toNat)) ∧
      (n.toNat ≤ 8 → received t.buf n.toNat = bytes) ∧
      (∀ hi lo, 1 ≤ n.toNat → n.toNat ≤ 8 → parse bytes = .matched hi lo →
        t.addrHi = hi ∧ t.addrLo = lo ∧ t.addrValid = true ∧ t.lastv = .matched ∧ t.ds = .validated ∧
        t.ph = .idle ∧ t.op = .none ∧ t.rsp = { status := .ok, d1 := hi, d0 := lo } ∧ t.rspValid = true) ∧
      ((n.toNat = 0 ∨ 8 < n.toNat ∨ ∀ hi lo, parse bytes ≠ .matched hi lo) →
        t.addrHi = s.addrHi ∧ t.addrLo = s.addrLo ∧ t.addrValid = s.addrValid ∧ t.ds = .idle ∧ t.it = s.it + 1 ∧
        t.lastv = (if n.toNat = 0 then .noData else if 8 < n.toNat then .oversize else (parse bytes).last) ∧
        ((∃ limit, Config.discLimit = some limit ∧ limit.val ≤ s.it + 1) →
          t.ph = .idle ∧ t.op = .none ∧ t.rsp = { status := .discExhausted, d1 := 0, d0 := 0 } ∧ t.rspValid = true) ∧
        ((∀ limit, Config.discLimit = some limit → s.it + 1 < limit.val) →
          t.ph = .dRxen ∧ t.u = 0 ∧ t.op = s.op ∧ t.rspValid = s.rspValid))

/-- In the script of INIT a byte is sent with no delay exactly once, at the third event: the Reset strobe's code
(R168). Its settle is the fifth event, and the bytes of register writes, which carry the delay 200 (R131), come after
it. -/
def Obligations.ResetStrobePrecedesEveryWrite : Prop :=
  (∀ (k : Nat) (b : Byte), initScript[k]? = some (.tx b 0) ↔ k = 2 ∧ b = Config.stbCode .reset) ∧
  (∀ k : Nat, initScript[k]? = some (.delay 20000) ↔ k = 4) ∧
  (∀ (k : Nat) (b : Byte), initScript[k]? = some (.tx b 200) → 4 < k)

/-! ### Invariants -/

/-- The reset state satisfies the invariants of R47 and of the position. -/
def Obligations.ResetSatisfiesInvariants : Prop :=
  SpecInvariant State.reset ∧ PositionInvariant State.reset ∧ Bracketed State.reset

/-- Every step keeps the invariants (a) to (h) of R47. -/
def Obligations.StepKeepsSpecInvariant : Prop :=
  ∀ s t : State, SpecInvariant s → step s = .next t → SpecInvariant t

/-- Every step keeps the ranges of the position (R28, R29, R30, R96), the exact value of `CS` (R36) and the canonical
form of `BUF`. -/
def Obligations.StepKeepsPositionInvariant : Prop :=
  ∀ s t : State, PositionInvariant s → step s = .next t → PositionInvariant t

/-- Every step but a hardware reset keeps the bracket discipline of R137: brackets do not nest, bytes move only inside
one, delays and reports only outside, and a bracket is open exactly when `CS` is 1. -/
def Obligations.StepKeepsBracketDiscipline : Prop :=
  ∀ s t : State, PositionInvariant s → Bracketed s → s.resetPin = false → step s = .next t → Bracketed t

/-- From a state in the position's ranges a step goes on, or the block is the halted one: no event fails to exist and
no instruction is refused (R45, R256). That the halted block's step is the fault `halted` is the model's choice
(log 11). -/
def Obligations.InvariantStatesStopOnlyHalted : Prop :=
  ∀ s : State, PositionInvariant s → SafeOutcome s

/-- Every state a run passes through satisfies the invariants if its first state does; in particular every state that
is reached from reset, whatever words are offered and whatever the transport answers, satisfies R47. -/
def Obligations.RunsKeepInvariants : Prop :=
  (∀ (s t : State) (n : Nat), SpecInvariant s → PositionInvariant s → core.run n s = .next t →
    SpecInvariant t ∧ PositionInvariant t) ∧
  (∀ (offers : List HostWord) (answers : List Answer) (t : State) (n : Nat),
    core.run n { State.reset with offers := offers, answers := answers } = .next t → SpecInvariant t)

/-! ### Whole-machine rules -/

/-- `ADDR_HI` and `ADDR_LO` are written only by SETA and by a successful DISC (R21, R242), and by hardware reset. -/
def Obligations.AddressIsWrittenOnlyBySetaAndDisc : Prop :=
  ∀ s t : State, s.resetPin = false → step s = .next t →
    (t.addrHi = s.addrHi ∧ t.addrLo = s.addrLo ∧ t.addrValid = s.addrValid) ∨
    (s.ph = .idle ∧ ∃ w rest hi lo, s.offers = w :: rest ∧ decodeWord w = .ok (.seta hi lo) ∧
      t.addrHi = hi ∧ t.addrLo = lo ∧ t.addrValid = true) ∨
    (s.ph = .dFrx ∧ s.u = 4 ∧ ∃ hi lo, verdict s.len s.buf = .matched hi lo ∧
      t.addrHi = hi ∧ t.addrLo = lo ∧ t.addrValid = true)

/-- A busy block does not look at the command port (R33): it does the same whatever is offered, and every word stays
offered. -/
def Obligations.BusyBlockIgnoresTheCommandPort : Prop :=
  ∀ (s t : State) (offers : List HostWord), s.resetPin = false → isBusy s = true → step s = .next t →
    t.offers = s.offers ∧ step { s with offers := offers } = .next { t with offers := offers }

/-- The trace is a total order (R72): a step keeps what was emitted and adds at most one event. -/
def Obligations.StepEmitsAtMostOneEvent : Prop :=
  ∀ s t : State, step s = .next t →
    t.trace = s.trace ∨ ∃ e r, nextEvent s = some e ∧ t.trace = s.trace ++ [⟨e, r⟩]

/-- The flags other than `CS` (R34, R35): `OVS` is set only where `D_REPORT` completes and never cleared; `INITED` is
cleared only when INIT is accepted and set only where `I_POWER` completes. -/
def Obligations.FlagsFollowTheirRules : Prop :=
  ∀ s t : State, s.resetPin = false → step s = .next t →
    t.ovs = (s.ovs || decide (s.ph = .dReport ∧ s.u = 0)) ∧
    (t.inited = s.inited ∨
      (t.inited = false ∧ s.ph = .idle ∧ ∃ w rest, s.offers = w :: rest ∧ decodeWord w = .ok .init) ∨
      (t.inited = true ∧ s.ph = .iPower ∧ s.u = 5))

/-- The transitions of `DS` (R218), and where `LASTV` is written (R219): `DS` moves only when DISC is accepted and at the
micro-step, index 4, that completes `D_RXEN`, `D_LEN` or `D_FRX`; `LASTV` only where `D_FRX` completes. -/
def Obligations.DiscoveryStateMovesAsStated : Prop :=
  ∀ s t : State, s.resetPin = false → step s = .next t →
    (t.ds = s.ds ∨
      (t.ds = .idle ∧ s.ph = .idle ∧ ∃ w rest, s.offers = w :: rest ∧ decodeWord w = .ok .disc) ∨
      (t.ds = .listening ∧ s.ph = .dRxen ∧ s.u = 4 ∧ t.ph = .dCfg) ∨
      (t.ds = .pending ∧ s.ph = .dLen ∧ s.u = 4 ∧ t.ph = .dFifo ∧ 1 ≤ t.len.toNat ∧ t.len.toNat ≤ 8) ∨
      (t.ds = .validated ∧ s.ph = .dFrx ∧ s.u = 4 ∧ ∃ hi lo, verdict s.len s.buf = .matched hi lo) ∨
      (t.ds = .idle ∧ s.ph = .dFrx ∧ s.u = 4 ∧ ∀ hi lo, verdict s.len s.buf ≠ .matched hi lo)) ∧
    (t.lastv = s.lastv ∨ (s.ph = .dFrx ∧ s.u = 4 ∧ t.lastv = (verdict s.len s.buf).last))

/-- `CAUSE`, `FPH` and `FU` are written only on entry to `PH_HALT` (R37), with the position of the failing event, or
`PH_IDLE` and 0 for a ProtocolViolation. -/
def Obligations.CauseIsWrittenOnlyOnHalt : Prop :=
  ∀ s t : State, s.resetPin = false → step s = .next t →
    (t.cause = s.cause ∧ t.fph = s.fph ∧ t.fu = s.fu ∧ t.ph ≠ .halt) ∨
    (t.ph = .halt ∧ t.cause = .transportFault ∧ t.fph = s.ph.code ∧ t.fu = s.u) ∨
    (t.ph = .halt ∧ t.cause = .protocolViolation ∧ t.fph = 0 ∧ t.fu = 0 ∧ s.ph = .idle ∧ s.addrValid = false)

/-- The select record (R36): set by a `SEL` answered ok, cleared by a `DESEL` answered ok, unchanged by every other
event, by every failure, and by a step that emits nothing. -/
def Obligations.SelectRecordFollowsTheEvents : Prop :=
  ∀ s t : State, s.resetPin = false → step s = .next t →
    (t.trace = s.trace → t.cs = s.cs) ∧
    (∀ e r, t.trace = s.trace ++ [⟨e, r⟩] →
      t.cs = if r = .fail then s.cs else if e = .sel then true else if e = .desel then false else s.cs)
end

