-- ==== Sys2Proof/Laws/Memory.lean ====
section
/-! SUPPORT. The packet buffer: what a write does to a read, and that every operation keeps the canonical form. -/

namespace Sys2Proof.Machine

theorem Memory.read_erase_same (m : Memory) (i : Nat) : Memory.read (Memory.erase m i) i = Memory.blank := by
  induction m with
  | nil => rfl
  | cons c m ih =>
    obtain ⟨j, v⟩ := c
    by_cases h : j = i <;> simp [Memory.erase, Memory.read, h, ih]

theorem Memory.read_erase_ne (m : Memory) {i j : Nat} (h : j ≠ i) :
    Memory.read (Memory.erase m i) j = Memory.read m j := by
  induction m with
  | nil => rfl
  | cons c m ih =>
    obtain ⟨k, v⟩ := c
    by_cases hk : k = i
    · subst hk
      simp [Memory.erase, Memory.read, ih, Ne.symm h]
    · simp [Memory.erase, Memory.read, hk, ih]

theorem Memory.read_insert_ne (m : Memory) {i j : Nat} (v : Byte) (h : j ≠ i) :
    Memory.read (Memory.insert m i v) j = Memory.read m j := by
  induction m with
  | nil => simp [Memory.insert, Memory.read, Ne.symm h]
  | cons c m ih =>
    obtain ⟨k, w⟩ := c
    by_cases hk : i < k
    · simp [Memory.insert, Memory.read, hk, Ne.symm h]
    · simp [Memory.insert, Memory.read, hk, ih]

/-- The canonical form from an index on, without the bound: rising and no blank cell. -/
theorem Memory.risingFrom_mono {lo lo' : Nat} (m : Memory) (h : lo' ≤ lo) :
    Memory.risingFrom lo m = true → Memory.risingFrom lo' m = true := by
  cases m with
  | nil => intro _; rfl
  | cons c m =>
    simp only [Memory.risingFrom, Bool.and_eq_true, decide_eq_true_eq]
    exact fun ⟨a, b⟩ => ⟨by omega, b⟩

theorem Memory.risingFrom_erase (m : Memory) (i : Nat) :
    ∀ lo, Memory.risingFrom lo m = true → Memory.risingFrom lo (Memory.erase m i) = true := by
  induction m with
  | nil => intro lo _; rfl
  | cons c m ih =>
    obtain ⟨j, v⟩ := c
    intro lo h
    simp only [Memory.risingFrom, Bool.and_eq_true, decide_eq_true_eq] at h
    by_cases hj : j = i
    · simp only [Memory.erase, hj, if_true]
      exact Memory.risingFrom_mono _ (by omega) (ih _ h.2)
    · simp only [Memory.erase, hj, if_false, Memory.risingFrom, Bool.and_eq_true, decide_eq_true_eq]
      exact ⟨h.1, ih _ h.2⟩

theorem Memory.not_mem_erase (m : Memory) (i : Nat) : ∀ c ∈ Memory.erase m i, c.1 ≠ i := by
  induction m with
  | nil => simp [Memory.erase]
  | cons c m ih =>
    obtain ⟨j, v⟩ := c
    by_cases hj : j = i
    · simpa [Memory.erase, hj] using ih
    · simp only [Memory.erase, hj, if_false, List.mem_cons]
      rintro c (rfl | hc)
      · exact hj
      · exact ih c hc

theorem Memory.mem_erase {m : Memory} {i : Nat} {c : Host.Cell} (h : c ∈ Memory.erase m i) : c ∈ m := by
  induction m with
  | nil => simp [Memory.erase] at h
  | cons d m ih =>
    obtain ⟨j, v⟩ := d
    by_cases hj : j = i
    · simp only [Memory.erase, hj, if_true] at h
      exact List.mem_cons_of_mem _ (ih h)
    · simp only [Memory.erase, hj, if_false, List.mem_cons] at h
      rcases h with rfl | h
      · exact List.mem_cons_self
      · exact List.mem_cons_of_mem _ (ih h)

theorem Memory.risingFrom_insert (m : Memory) (i : Nat) (v : Byte) :
    ∀ lo, lo ≤ i → (∀ c ∈ m, c.1 ≠ i) → Memory.risingFrom lo m = true →
      Memory.risingFrom lo (Memory.insert m i v) = true := by
  induction m with
  | nil => intro lo h _ _; simp [Memory.insert, Memory.risingFrom, h]
  | cons c m ih =>
    obtain ⟨j, w⟩ := c
    intro lo hlo hne h
    simp only [Memory.risingFrom, Bool.and_eq_true, decide_eq_true_eq] at h
    by_cases hj : i < j
    · simp only [Memory.insert, hj, if_true, Memory.risingFrom, Bool.and_eq_true, decide_eq_true_eq]
      exact ⟨hlo, by omega, h.2⟩
    · have hji : j ≠ i := hne (j, w) List.mem_cons_self
      simp only [Memory.insert, hj, if_false, Memory.risingFrom, Bool.and_eq_true, decide_eq_true_eq]
      exact ⟨h.1, ih (j + 1) (by omega) (fun c hc => hne c (List.mem_cons_of_mem _ hc)) h.2⟩

theorem Memory.mem_insert {m : Memory} {i : Nat} {v : Byte} {c : Host.Cell} (h : c ∈ Memory.insert m i v) :
    c = (i, v) ∨ c ∈ m := by
  induction m with
  | nil => simpa [Memory.insert] using h
  | cons d m ih =>
    obtain ⟨j, w⟩ := d
    by_cases hj : i < j
    · simpa [Memory.insert, hj] using h
    · simp only [Memory.insert, hj, if_false, List.mem_cons] at h
      rcases h with rfl | h
      · exact .inr List.mem_cons_self
      · rcases ih h with h | h
        · exact .inl h
        · exact .inr (List.mem_cons_of_mem _ h)

theorem Memory.read_insert_same (m : Memory) (i : Nat) (v : Byte) (h : ∀ c ∈ m, c.1 ≠ i) :
    Memory.read (Memory.insert m i v) i = v := by
  induction m with
  | nil => simp [Memory.insert, Memory.read]
  | cons c m ih =>
    obtain ⟨j, w⟩ := c
    have hj : j ≠ i := h (j, w) List.mem_cons_self
    by_cases hlt : i < j
    · simp [Memory.insert, Memory.read, hlt]
    · simp [Memory.insert, Memory.read, hlt, hj, ih fun c hc => h c (List.mem_cons_of_mem _ hc)]

/-- A read after a write to the same index gives the value written. -/
theorem Memory.read_write_same (m : Memory) (i : Nat) (v : Byte) : Memory.read (Memory.write m i v) i = v := by
  by_cases hv : v = Memory.blank
  · simp [Memory.write, hv, Memory.read_erase_same]
  · simp only [Memory.write, hv, if_false]
    exact Memory.read_insert_same _ _ _ (Memory.not_mem_erase m i)

/-- A write leaves every other index alone. -/
theorem Memory.read_write_ne (m : Memory) {i j : Nat} (v : Byte) (h : j ≠ i) :
    Memory.read (Memory.write m i v) j = Memory.read m j := by
  by_cases hv : v = Memory.blank
  · simp [Memory.write, hv, Memory.read_erase_ne m h]
  · simp [Memory.write, hv, Memory.read_insert_ne _ v h, Memory.read_erase_ne m h]

/-- A write below the eight bytes of `BUF` keeps the canonical form. -/
theorem Memory.wf_write {m : Memory} {i : Nat} (v : Byte) (hi : i < 8) (h : Memory.wf m = true) :
    Memory.wf (Memory.write m i v) = true := by
  simp only [Memory.wf, Bool.and_eq_true, List.all_eq_true, decide_eq_true_eq] at h ⊢
  obtain ⟨hr, hc⟩ := h
  by_cases hv : v = Memory.blank
  · simp only [Memory.write, hv, if_true]
    exact ⟨Memory.risingFrom_erase m i 0 hr, fun c hm => hc c (Memory.mem_erase hm)⟩
  · simp only [Memory.write, hv, if_false]
    refine ⟨Memory.risingFrom_insert _ i v 0 (Nat.zero_le _) (Memory.not_mem_erase m i)
      (Memory.risingFrom_erase m i 0 hr), fun c hm => ?_⟩
    rcases Memory.mem_insert hm with rfl | hm
    · exact ⟨hi, hv⟩
    · exact hc c (Memory.mem_erase hm)

/-- The reset state's buffer has the canonical form. -/
theorem Memory.wf_reset : Memory.wf State.reset.buf = true := rfl

/-- Equal reads below `n` receive equal bytes. -/
theorem received_congr {b c : Memory} {n : Nat} (h : ∀ i, i < n → Memory.read b i = Memory.read c i) :
    received b n = received c n :=
  List.map_congr_left fun i hi => h i (List.mem_range.1 hi)

@[simp] theorem received_length (m : Memory) (n : Nat) : (received m n).length = n := by
  simp [received]

theorem received_getElem? (m : Memory) (n i : Nat) :
    (received m n)[i]? = if i < n then some (Memory.read m i) else none := by
  by_cases h : i < n <;> simp [received, h]

end Sys2Proof.Machine
end

