-- ==== Sys2Proof/Laws/State.lean ====
section
/-! SUPPORT. One lemma per field for each named update of the state, so that no proof unfolds a record update. -/

namespace Sys2Proof.Machine

/-! `enterPhase` -/
@[simp] theorem enterPhase_addrHi (p : Phase) (s : State) : (enterPhase p s).addrHi = s.addrHi := rfl
@[simp] theorem enterPhase_addrLo (p : Phase) (s : State) : (enterPhase p s).addrLo = s.addrLo := rfl
@[simp] theorem enterPhase_addrValid (p : Phase) (s : State) : (enterPhase p s).addrValid = s.addrValid := rfl
@[simp] theorem enterPhase_buf (p : Phase) (s : State) : (enterPhase p s).buf = s.buf := rfl
@[simp] theorem enterPhase_len (p : Phase) (s : State) : (enterPhase p s).len = s.len := rfl
@[simp] theorem enterPhase_opcLat (p : Phase) (s : State) : (enterPhase p s).opcLat = s.opcLat := rfl
@[simp] theorem enterPhase_pa (p : Phase) (s : State) : (enterPhase p s).pa = s.pa := rfl
@[simp] theorem enterPhase_pb (p : Phase) (s : State) : (enterPhase p s).pb = s.pb := rfl
@[simp] theorem enterPhase_rdata (p : Phase) (s : State) : (enterPhase p s).rdata = s.rdata := rfl
@[simp] theorem enterPhase_op (p : Phase) (s : State) : (enterPhase p s).op = s.op := rfl
@[simp] theorem enterPhase_ph (p : Phase) (s : State) : (enterPhase p s).ph = p := rfl
@[simp] theorem enterPhase_u (p : Phase) (s : State) : (enterPhase p s).u = 0 := rfl
@[simp] theorem enterPhase_ti (p : Phase) (s : State) : (enterPhase p s).ti = s.ti := rfl
@[simp] theorem enterPhase_rep (p : Phase) (s : State) : (enterPhase p s).rep = s.rep := rfl
@[simp] theorem enterPhase_bi (p : Phase) (s : State) : (enterPhase p s).bi = s.bi := rfl
@[simp] theorem enterPhase_it (p : Phase) (s : State) : (enterPhase p s).it = s.it := rfl
@[simp] theorem enterPhase_inited (p : Phase) (s : State) : (enterPhase p s).inited = s.inited := rfl
@[simp] theorem enterPhase_ovs (p : Phase) (s : State) : (enterPhase p s).ovs = s.ovs := rfl
@[simp] theorem enterPhase_cs (p : Phase) (s : State) : (enterPhase p s).cs = s.cs := rfl
@[simp] theorem enterPhase_cause (p : Phase) (s : State) : (enterPhase p s).cause = s.cause := rfl
@[simp] theorem enterPhase_fph (p : Phase) (s : State) : (enterPhase p s).fph = s.fph := rfl
@[simp] theorem enterPhase_fu (p : Phase) (s : State) : (enterPhase p s).fu = s.fu := rfl
@[simp] theorem enterPhase_lastv (p : Phase) (s : State) : (enterPhase p s).lastv = s.lastv := rfl
@[simp] theorem enterPhase_ds (p : Phase) (s : State) : (enterPhase p s).ds = s.ds := rfl
@[simp] theorem enterPhase_rsp (p : Phase) (s : State) : (enterPhase p s).rsp = s.rsp := rfl
@[simp] theorem enterPhase_rspValid (p : Phase) (s : State) : (enterPhase p s).rspValid = s.rspValid := rfl
@[simp] theorem enterPhase_offers (p : Phase) (s : State) : (enterPhase p s).offers = s.offers := rfl
@[simp] theorem enterPhase_answers (p : Phase) (s : State) : (enterPhase p s).answers = s.answers := rfl
@[simp] theorem enterPhase_resetPin (p : Phase) (s : State) : (enterPhase p s).resetPin = s.resetPin := rfl
@[simp] theorem enterPhase_trace (p : Phase) (s : State) : (enterPhase p s).trace = s.trace := rfl

/-! `beginOperation` -/
@[simp] theorem beginOperation_addrHi (o : Operation) (p : Phase) (s : State) : (beginOperation o p s).addrHi = s.addrHi := rfl
@[simp] theorem beginOperation_addrLo (o : Operation) (p : Phase) (s : State) : (beginOperation o p s).addrLo = s.addrLo := rfl
@[simp] theorem beginOperation_addrValid (o : Operation) (p : Phase) (s : State) : (beginOperation o p s).addrValid = s.addrValid := rfl
@[simp] theorem beginOperation_buf (o : Operation) (p : Phase) (s : State) : (beginOperation o p s).buf = s.buf := rfl
@[simp] theorem beginOperation_len (o : Operation) (p : Phase) (s : State) : (beginOperation o p s).len = s.len := rfl
@[simp] theorem beginOperation_opcLat (o : Operation) (p : Phase) (s : State) : (beginOperation o p s).opcLat = s.opcLat := rfl
@[simp] theorem beginOperation_pa (o : Operation) (p : Phase) (s : State) : (beginOperation o p s).pa = s.pa := rfl
@[simp] theorem beginOperation_pb (o : Operation) (p : Phase) (s : State) : (beginOperation o p s).pb = s.pb := rfl
@[simp] theorem beginOperation_rdata (o : Operation) (p : Phase) (s : State) : (beginOperation o p s).rdata = s.rdata := rfl
@[simp] theorem beginOperation_op (o : Operation) (p : Phase) (s : State) : (beginOperation o p s).op = o := rfl
@[simp] theorem beginOperation_ph (o : Operation) (p : Phase) (s : State) : (beginOperation o p s).ph = p := rfl
@[simp] theorem beginOperation_u (o : Operation) (p : Phase) (s : State) : (beginOperation o p s).u = 0 := rfl
@[simp] theorem beginOperation_ti (o : Operation) (p : Phase) (s : State) : (beginOperation o p s).ti = s.ti := rfl
@[simp] theorem beginOperation_rep (o : Operation) (p : Phase) (s : State) : (beginOperation o p s).rep = s.rep := rfl
@[simp] theorem beginOperation_bi (o : Operation) (p : Phase) (s : State) : (beginOperation o p s).bi = s.bi := rfl
@[simp] theorem beginOperation_it (o : Operation) (p : Phase) (s : State) : (beginOperation o p s).it = s.it := rfl
@[simp] theorem beginOperation_inited (o : Operation) (p : Phase) (s : State) : (beginOperation o p s).inited = s.inited := rfl
@[simp] theorem beginOperation_ovs (o : Operation) (p : Phase) (s : State) : (beginOperation o p s).ovs = s.ovs := rfl
@[simp] theorem beginOperation_cs (o : Operation) (p : Phase) (s : State) : (beginOperation o p s).cs = s.cs := rfl
@[simp] theorem beginOperation_cause (o : Operation) (p : Phase) (s : State) : (beginOperation o p s).cause = s.cause := rfl
@[simp] theorem beginOperation_fph (o : Operation) (p : Phase) (s : State) : (beginOperation o p s).fph = s.fph := rfl
@[simp] theorem beginOperation_fu (o : Operation) (p : Phase) (s : State) : (beginOperation o p s).fu = s.fu := rfl
@[simp] theorem beginOperation_lastv (o : Operation) (p : Phase) (s : State) : (beginOperation o p s).lastv = s.lastv := rfl
@[simp] theorem beginOperation_ds (o : Operation) (p : Phase) (s : State) : (beginOperation o p s).ds = s.ds := rfl
@[simp] theorem beginOperation_rsp (o : Operation) (p : Phase) (s : State) : (beginOperation o p s).rsp = s.rsp := rfl
@[simp] theorem beginOperation_rspValid (o : Operation) (p : Phase) (s : State) : (beginOperation o p s).rspValid = false := rfl
@[simp] theorem beginOperation_offers (o : Operation) (p : Phase) (s : State) : (beginOperation o p s).offers = s.offers := rfl
@[simp] theorem beginOperation_answers (o : Operation) (p : Phase) (s : State) : (beginOperation o p s).answers = s.answers := rfl
@[simp] theorem beginOperation_resetPin (o : Operation) (p : Phase) (s : State) : (beginOperation o p s).resetPin = s.resetPin := rfl
@[simp] theorem beginOperation_trace (o : Operation) (p : Phase) (s : State) : (beginOperation o p s).trace = s.trace := rfl

/-! `complete` -/
@[simp] theorem complete_addrHi (t : Status) (a b : Byte) (s : State) : (complete t a b s).addrHi = s.addrHi := rfl
@[simp] theorem complete_addrLo (t : Status) (a b : Byte) (s : State) : (complete t a b s).addrLo = s.addrLo := rfl
@[simp] theorem complete_addrValid (t : Status) (a b : Byte) (s : State) : (complete t a b s).addrValid = s.addrValid := rfl
@[simp] theorem complete_buf (t : Status) (a b : Byte) (s : State) : (complete t a b s).buf = s.buf := rfl
@[simp] theorem complete_len (t : Status) (a b : Byte) (s : State) : (complete t a b s).len = s.len := rfl
@[simp] theorem complete_opcLat (t : Status) (a b : Byte) (s : State) : (complete t a b s).opcLat = s.opcLat := rfl
@[simp] theorem complete_pa (t : Status) (a b : Byte) (s : State) : (complete t a b s).pa = s.pa := rfl
@[simp] theorem complete_pb (t : Status) (a b : Byte) (s : State) : (complete t a b s).pb = s.pb := rfl
@[simp] theorem complete_rdata (t : Status) (a b : Byte) (s : State) : (complete t a b s).rdata = s.rdata := rfl
@[simp] theorem complete_op (t : Status) (a b : Byte) (s : State) : (complete t a b s).op = .none := rfl
@[simp] theorem complete_ph (t : Status) (a b : Byte) (s : State) : (complete t a b s).ph = .idle := rfl
@[simp] theorem complete_u (t : Status) (a b : Byte) (s : State) : (complete t a b s).u = 0 := rfl
@[simp] theorem complete_ti (t : Status) (a b : Byte) (s : State) : (complete t a b s).ti = s.ti := rfl
@[simp] theorem complete_rep (t : Status) (a b : Byte) (s : State) : (complete t a b s).rep = s.rep := rfl
@[simp] theorem complete_bi (t : Status) (a b : Byte) (s : State) : (complete t a b s).bi = s.bi := rfl
@[simp] theorem complete_it (t : Status) (a b : Byte) (s : State) : (complete t a b s).it = s.it := rfl
@[simp] theorem complete_inited (t : Status) (a b : Byte) (s : State) : (complete t a b s).inited = s.inited := rfl
@[simp] theorem complete_ovs (t : Status) (a b : Byte) (s : State) : (complete t a b s).ovs = s.ovs := rfl
@[simp] theorem complete_cs (t : Status) (a b : Byte) (s : State) : (complete t a b s).cs = s.cs := rfl
@[simp] theorem complete_cause (t : Status) (a b : Byte) (s : State) : (complete t a b s).cause = s.cause := rfl
@[simp] theorem complete_fph (t : Status) (a b : Byte) (s : State) : (complete t a b s).fph = s.fph := rfl
@[simp] theorem complete_fu (t : Status) (a b : Byte) (s : State) : (complete t a b s).fu = s.fu := rfl
@[simp] theorem complete_lastv (t : Status) (a b : Byte) (s : State) : (complete t a b s).lastv = s.lastv := rfl
@[simp] theorem complete_ds (t : Status) (a b : Byte) (s : State) : (complete t a b s).ds = s.ds := rfl
@[simp] theorem complete_rsp (t : Status) (a b : Byte) (s : State) : (complete t a b s).rsp = ⟨t, a, b⟩ := rfl
@[simp] theorem complete_rspValid (t : Status) (a b : Byte) (s : State) : (complete t a b s).rspValid = true := rfl
@[simp] theorem complete_offers (t : Status) (a b : Byte) (s : State) : (complete t a b s).offers = s.offers := rfl
@[simp] theorem complete_answers (t : Status) (a b : Byte) (s : State) : (complete t a b s).answers = s.answers := rfl
@[simp] theorem complete_resetPin (t : Status) (a b : Byte) (s : State) : (complete t a b s).resetPin = s.resetPin := rfl
@[simp] theorem complete_trace (t : Status) (a b : Byte) (s : State) : (complete t a b s).trace = s.trace := rfl

/-! `haltWith` -/
@[simp] theorem haltWith_addrHi (c : Cause) (x : BitVec 5) (y : BitVec 4) (s : State) : (haltWith c x y s).addrHi = s.addrHi := rfl
@[simp] theorem haltWith_addrLo (c : Cause) (x : BitVec 5) (y : BitVec 4) (s : State) : (haltWith c x y s).addrLo = s.addrLo := rfl
@[simp] theorem haltWith_addrValid (c : Cause) (x : BitVec 5) (y : BitVec 4) (s : State) : (haltWith c x y s).addrValid = s.addrValid := rfl
@[simp] theorem haltWith_buf (c : Cause) (x : BitVec 5) (y : BitVec 4) (s : State) : (haltWith c x y s).buf = s.buf := rfl
@[simp] theorem haltWith_len (c : Cause) (x : BitVec 5) (y : BitVec 4) (s : State) : (haltWith c x y s).len = s.len := rfl
@[simp] theorem haltWith_opcLat (c : Cause) (x : BitVec 5) (y : BitVec 4) (s : State) : (haltWith c x y s).opcLat = s.opcLat := rfl
@[simp] theorem haltWith_pa (c : Cause) (x : BitVec 5) (y : BitVec 4) (s : State) : (haltWith c x y s).pa = s.pa := rfl
@[simp] theorem haltWith_pb (c : Cause) (x : BitVec 5) (y : BitVec 4) (s : State) : (haltWith c x y s).pb = s.pb := rfl
@[simp] theorem haltWith_rdata (c : Cause) (x : BitVec 5) (y : BitVec 4) (s : State) : (haltWith c x y s).rdata = s.rdata := rfl
@[simp] theorem haltWith_op (c : Cause) (x : BitVec 5) (y : BitVec 4) (s : State) : (haltWith c x y s).op = s.op := rfl
@[simp] theorem haltWith_ph (c : Cause) (x : BitVec 5) (y : BitVec 4) (s : State) : (haltWith c x y s).ph = .halt := rfl
@[simp] theorem haltWith_u (c : Cause) (x : BitVec 5) (y : BitVec 4) (s : State) : (haltWith c x y s).u = s.u := rfl
@[simp] theorem haltWith_ti (c : Cause) (x : BitVec 5) (y : BitVec 4) (s : State) : (haltWith c x y s).ti = s.ti := rfl
@[simp] theorem haltWith_rep (c : Cause) (x : BitVec 5) (y : BitVec 4) (s : State) : (haltWith c x y s).rep = s.rep := rfl
@[simp] theorem haltWith_bi (c : Cause) (x : BitVec 5) (y : BitVec 4) (s : State) : (haltWith c x y s).bi = s.bi := rfl
@[simp] theorem haltWith_it (c : Cause) (x : BitVec 5) (y : BitVec 4) (s : State) : (haltWith c x y s).it = s.it := rfl
@[simp] theorem haltWith_inited (c : Cause) (x : BitVec 5) (y : BitVec 4) (s : State) : (haltWith c x y s).inited = s.inited := rfl
@[simp] theorem haltWith_ovs (c : Cause) (x : BitVec 5) (y : BitVec 4) (s : State) : (haltWith c x y s).ovs = s.ovs := rfl
@[simp] theorem haltWith_cs (c : Cause) (x : BitVec 5) (y : BitVec 4) (s : State) : (haltWith c x y s).cs = s.cs := rfl
@[simp] theorem haltWith_cause (c : Cause) (x : BitVec 5) (y : BitVec 4) (s : State) : (haltWith c x y s).cause = c := rfl
@[simp] theorem haltWith_fph (c : Cause) (x : BitVec 5) (y : BitVec 4) (s : State) : (haltWith c x y s).fph = x := rfl
@[simp] theorem haltWith_fu (c : Cause) (x : BitVec 5) (y : BitVec 4) (s : State) : (haltWith c x y s).fu = y := rfl
@[simp] theorem haltWith_lastv (c : Cause) (x : BitVec 5) (y : BitVec 4) (s : State) : (haltWith c x y s).lastv = s.lastv := rfl
@[simp] theorem haltWith_ds (c : Cause) (x : BitVec 5) (y : BitVec 4) (s : State) : (haltWith c x y s).ds = s.ds := rfl
@[simp] theorem haltWith_rsp (c : Cause) (x : BitVec 5) (y : BitVec 4) (s : State) : (haltWith c x y s).rsp = ⟨c.status, 0, 0⟩ := rfl
@[simp] theorem haltWith_rspValid (c : Cause) (x : BitVec 5) (y : BitVec 4) (s : State) : (haltWith c x y s).rspValid = true := rfl
@[simp] theorem haltWith_offers (c : Cause) (x : BitVec 5) (y : BitVec 4) (s : State) : (haltWith c x y s).offers = s.offers := rfl
@[simp] theorem haltWith_answers (c : Cause) (x : BitVec 5) (y : BitVec 4) (s : State) : (haltWith c x y s).answers = s.answers := rfl
@[simp] theorem haltWith_resetPin (c : Cause) (x : BitVec 5) (y : BitVec 4) (s : State) : (haltWith c x y s).resetPin = s.resetPin := rfl
@[simp] theorem haltWith_trace (c : Cause) (x : BitVec 5) (y : BitVec 4) (s : State) : (haltWith c x y s).trace = s.trace := rfl

/-! `record` -/
@[simp] theorem record_addrHi (e : Event) (r : Reply) (s : State) : (record e r s).addrHi = s.addrHi := rfl
@[simp] theorem record_addrLo (e : Event) (r : Reply) (s : State) : (record e r s).addrLo = s.addrLo := rfl
@[simp] theorem record_addrValid (e : Event) (r : Reply) (s : State) : (record e r s).addrValid = s.addrValid := rfl
@[simp] theorem record_buf (e : Event) (r : Reply) (s : State) : (record e r s).buf = s.buf := rfl
@[simp] theorem record_len (e : Event) (r : Reply) (s : State) : (record e r s).len = s.len := rfl
@[simp] theorem record_opcLat (e : Event) (r : Reply) (s : State) : (record e r s).opcLat = s.opcLat := rfl
@[simp] theorem record_pa (e : Event) (r : Reply) (s : State) : (record e r s).pa = s.pa := rfl
@[simp] theorem record_pb (e : Event) (r : Reply) (s : State) : (record e r s).pb = s.pb := rfl
@[simp] theorem record_rdata (e : Event) (r : Reply) (s : State) : (record e r s).rdata = s.rdata := rfl
@[simp] theorem record_op (e : Event) (r : Reply) (s : State) : (record e r s).op = s.op := rfl
@[simp] theorem record_ph (e : Event) (r : Reply) (s : State) : (record e r s).ph = s.ph := rfl
@[simp] theorem record_u (e : Event) (r : Reply) (s : State) : (record e r s).u = s.u := rfl
@[simp] theorem record_ti (e : Event) (r : Reply) (s : State) : (record e r s).ti = s.ti := rfl
@[simp] theorem record_rep (e : Event) (r : Reply) (s : State) : (record e r s).rep = s.rep := rfl
@[simp] theorem record_bi (e : Event) (r : Reply) (s : State) : (record e r s).bi = s.bi := rfl
@[simp] theorem record_it (e : Event) (r : Reply) (s : State) : (record e r s).it = s.it := rfl
@[simp] theorem record_inited (e : Event) (r : Reply) (s : State) : (record e r s).inited = s.inited := rfl
@[simp] theorem record_ovs (e : Event) (r : Reply) (s : State) : (record e r s).ovs = s.ovs := rfl
@[simp] theorem record_cs (e : Event) (r : Reply) (s : State) : (record e r s).cs = s.cs := rfl
@[simp] theorem record_cause (e : Event) (r : Reply) (s : State) : (record e r s).cause = s.cause := rfl
@[simp] theorem record_fph (e : Event) (r : Reply) (s : State) : (record e r s).fph = s.fph := rfl
@[simp] theorem record_fu (e : Event) (r : Reply) (s : State) : (record e r s).fu = s.fu := rfl
@[simp] theorem record_lastv (e : Event) (r : Reply) (s : State) : (record e r s).lastv = s.lastv := rfl
@[simp] theorem record_ds (e : Event) (r : Reply) (s : State) : (record e r s).ds = s.ds := rfl
@[simp] theorem record_rsp (e : Event) (r : Reply) (s : State) : (record e r s).rsp = s.rsp := rfl
@[simp] theorem record_rspValid (e : Event) (r : Reply) (s : State) : (record e r s).rspValid = s.rspValid := rfl
@[simp] theorem record_offers (e : Event) (r : Reply) (s : State) : (record e r s).offers = s.offers := rfl
@[simp] theorem record_answers (e : Event) (r : Reply) (s : State) : (record e r s).answers = s.answers := rfl
@[simp] theorem record_resetPin (e : Event) (r : Reply) (s : State) : (record e r s).resetPin = s.resetPin := rfl
@[simp] theorem record_trace (e : Event) (r : Reply) (s : State) : (record e r s).trace = s.trace ++ [⟨e, r⟩] := rfl

/-! `withAnswers` -/
@[simp] theorem withAnswers_addrHi (l : List Answer) (s : State) : (withAnswers l s).addrHi = s.addrHi := rfl
@[simp] theorem withAnswers_addrLo (l : List Answer) (s : State) : (withAnswers l s).addrLo = s.addrLo := rfl
@[simp] theorem withAnswers_addrValid (l : List Answer) (s : State) : (withAnswers l s).addrValid = s.addrValid := rfl
@[simp] theorem withAnswers_buf (l : List Answer) (s : State) : (withAnswers l s).buf = s.buf := rfl
@[simp] theorem withAnswers_len (l : List Answer) (s : State) : (withAnswers l s).len = s.len := rfl
@[simp] theorem withAnswers_opcLat (l : List Answer) (s : State) : (withAnswers l s).opcLat = s.opcLat := rfl
@[simp] theorem withAnswers_pa (l : List Answer) (s : State) : (withAnswers l s).pa = s.pa := rfl
@[simp] theorem withAnswers_pb (l : List Answer) (s : State) : (withAnswers l s).pb = s.pb := rfl
@[simp] theorem withAnswers_rdata (l : List Answer) (s : State) : (withAnswers l s).rdata = s.rdata := rfl
@[simp] theorem withAnswers_op (l : List Answer) (s : State) : (withAnswers l s).op = s.op := rfl
@[simp] theorem withAnswers_ph (l : List Answer) (s : State) : (withAnswers l s).ph = s.ph := rfl
@[simp] theorem withAnswers_u (l : List Answer) (s : State) : (withAnswers l s).u = s.u := rfl
@[simp] theorem withAnswers_ti (l : List Answer) (s : State) : (withAnswers l s).ti = s.ti := rfl
@[simp] theorem withAnswers_rep (l : List Answer) (s : State) : (withAnswers l s).rep = s.rep := rfl
@[simp] theorem withAnswers_bi (l : List Answer) (s : State) : (withAnswers l s).bi = s.bi := rfl
@[simp] theorem withAnswers_it (l : List Answer) (s : State) : (withAnswers l s).it = s.it := rfl
@[simp] theorem withAnswers_inited (l : List Answer) (s : State) : (withAnswers l s).inited = s.inited := rfl
@[simp] theorem withAnswers_ovs (l : List Answer) (s : State) : (withAnswers l s).ovs = s.ovs := rfl
@[simp] theorem withAnswers_cs (l : List Answer) (s : State) : (withAnswers l s).cs = s.cs := rfl
@[simp] theorem withAnswers_cause (l : List Answer) (s : State) : (withAnswers l s).cause = s.cause := rfl
@[simp] theorem withAnswers_fph (l : List Answer) (s : State) : (withAnswers l s).fph = s.fph := rfl
@[simp] theorem withAnswers_fu (l : List Answer) (s : State) : (withAnswers l s).fu = s.fu := rfl
@[simp] theorem withAnswers_lastv (l : List Answer) (s : State) : (withAnswers l s).lastv = s.lastv := rfl
@[simp] theorem withAnswers_ds (l : List Answer) (s : State) : (withAnswers l s).ds = s.ds := rfl
@[simp] theorem withAnswers_rsp (l : List Answer) (s : State) : (withAnswers l s).rsp = s.rsp := rfl
@[simp] theorem withAnswers_rspValid (l : List Answer) (s : State) : (withAnswers l s).rspValid = s.rspValid := rfl
@[simp] theorem withAnswers_offers (l : List Answer) (s : State) : (withAnswers l s).offers = s.offers := rfl
@[simp] theorem withAnswers_answers (l : List Answer) (s : State) : (withAnswers l s).answers = l := rfl
@[simp] theorem withAnswers_resetPin (l : List Answer) (s : State) : (withAnswers l s).resetPin = s.resetPin := rfl
@[simp] theorem withAnswers_trace (l : List Answer) (s : State) : (withAnswers l s).trace = s.trace := rfl

/-! `afterEvent` -/
@[simp] theorem afterEvent_addrHi (e : Event) (y : Byte) (s : State) : (afterEvent e y s).addrHi = s.addrHi := rfl
@[simp] theorem afterEvent_addrLo (e : Event) (y : Byte) (s : State) : (afterEvent e y s).addrLo = s.addrLo := rfl
@[simp] theorem afterEvent_addrValid (e : Event) (y : Byte) (s : State) : (afterEvent e y s).addrValid = s.addrValid := rfl
@[simp] theorem afterEvent_buf (e : Event) (y : Byte) (s : State) : (afterEvent e y s).buf = s.buf := rfl
@[simp] theorem afterEvent_len (e : Event) (y : Byte) (s : State) : (afterEvent e y s).len = s.len := rfl
@[simp] theorem afterEvent_opcLat (e : Event) (y : Byte) (s : State) : (afterEvent e y s).opcLat = s.opcLat := rfl
@[simp] theorem afterEvent_pa (e : Event) (y : Byte) (s : State) : (afterEvent e y s).pa = s.pa := rfl
@[simp] theorem afterEvent_pb (e : Event) (y : Byte) (s : State) : (afterEvent e y s).pb = s.pb := rfl
@[simp] theorem afterEvent_rdata (e : Event) (y : Byte) (s : State) : (afterEvent e y s).rdata = rdataAfter e y s.rdata := rfl
@[simp] theorem afterEvent_op (e : Event) (y : Byte) (s : State) : (afterEvent e y s).op = s.op := rfl
@[simp] theorem afterEvent_ph (e : Event) (y : Byte) (s : State) : (afterEvent e y s).ph = s.ph := rfl
@[simp] theorem afterEvent_u (e : Event) (y : Byte) (s : State) : (afterEvent e y s).u = s.u := rfl
@[simp] theorem afterEvent_ti (e : Event) (y : Byte) (s : State) : (afterEvent e y s).ti = s.ti := rfl
@[simp] theorem afterEvent_rep (e : Event) (y : Byte) (s : State) : (afterEvent e y s).rep = s.rep := rfl
@[simp] theorem afterEvent_bi (e : Event) (y : Byte) (s : State) : (afterEvent e y s).bi = s.bi := rfl
@[simp] theorem afterEvent_it (e : Event) (y : Byte) (s : State) : (afterEvent e y s).it = s.it := rfl
@[simp] theorem afterEvent_inited (e : Event) (y : Byte) (s : State) : (afterEvent e y s).inited = s.inited := rfl
@[simp] theorem afterEvent_ovs (e : Event) (y : Byte) (s : State) : (afterEvent e y s).ovs = s.ovs := rfl
@[simp] theorem afterEvent_cs (e : Event) (y : Byte) (s : State) : (afterEvent e y s).cs = csAfter e s.cs := rfl
@[simp] theorem afterEvent_cause (e : Event) (y : Byte) (s : State) : (afterEvent e y s).cause = s.cause := rfl
@[simp] theorem afterEvent_fph (e : Event) (y : Byte) (s : State) : (afterEvent e y s).fph = s.fph := rfl
@[simp] theorem afterEvent_fu (e : Event) (y : Byte) (s : State) : (afterEvent e y s).fu = s.fu := rfl
@[simp] theorem afterEvent_lastv (e : Event) (y : Byte) (s : State) : (afterEvent e y s).lastv = s.lastv := rfl
@[simp] theorem afterEvent_ds (e : Event) (y : Byte) (s : State) : (afterEvent e y s).ds = s.ds := rfl
@[simp] theorem afterEvent_rsp (e : Event) (y : Byte) (s : State) : (afterEvent e y s).rsp = s.rsp := rfl
@[simp] theorem afterEvent_rspValid (e : Event) (y : Byte) (s : State) : (afterEvent e y s).rspValid = s.rspValid := rfl
@[simp] theorem afterEvent_offers (e : Event) (y : Byte) (s : State) : (afterEvent e y s).offers = s.offers := rfl
@[simp] theorem afterEvent_answers (e : Event) (y : Byte) (s : State) : (afterEvent e y s).answers = s.answers := rfl
@[simp] theorem afterEvent_resetPin (e : Event) (y : Byte) (s : State) : (afterEvent e y s).resetPin = s.resetPin := rfl
@[simp] theorem afterEvent_trace (e : Event) (y : Byte) (s : State) : (afterEvent e y s).trace = s.trace := rfl

/-! `hardwareReset` -/
@[simp] theorem hardwareReset_addrHi (s : State) : (hardwareReset s).addrHi = State.reset.addrHi := rfl
@[simp] theorem hardwareReset_addrLo (s : State) : (hardwareReset s).addrLo = State.reset.addrLo := rfl
@[simp] theorem hardwareReset_addrValid (s : State) : (hardwareReset s).addrValid = State.reset.addrValid := rfl
@[simp] theorem hardwareReset_buf (s : State) : (hardwareReset s).buf = State.reset.buf := rfl
@[simp] theorem hardwareReset_len (s : State) : (hardwareReset s).len = State.reset.len := rfl
@[simp] theorem hardwareReset_opcLat (s : State) : (hardwareReset s).opcLat = State.reset.opcLat := rfl
@[simp] theorem hardwareReset_pa (s : State) : (hardwareReset s).pa = State.reset.pa := rfl
@[simp] theorem hardwareReset_pb (s : State) : (hardwareReset s).pb = State.reset.pb := rfl
@[simp] theorem hardwareReset_rdata (s : State) : (hardwareReset s).rdata = State.reset.rdata := rfl
@[simp] theorem hardwareReset_op (s : State) : (hardwareReset s).op = State.reset.op := rfl
@[simp] theorem hardwareReset_ph (s : State) : (hardwareReset s).ph = State.reset.ph := rfl
@[simp] theorem hardwareReset_u (s : State) : (hardwareReset s).u = State.reset.u := rfl
@[simp] theorem hardwareReset_ti (s : State) : (hardwareReset s).ti = State.reset.ti := rfl
@[simp] theorem hardwareReset_rep (s : State) : (hardwareReset s).rep = State.reset.rep := rfl
@[simp] theorem hardwareReset_bi (s : State) : (hardwareReset s).bi = State.reset.bi := rfl
@[simp] theorem hardwareReset_it (s : State) : (hardwareReset s).it = State.reset.it := rfl
@[simp] theorem hardwareReset_inited (s : State) : (hardwareReset s).inited = State.reset.inited := rfl
@[simp] theorem hardwareReset_ovs (s : State) : (hardwareReset s).ovs = State.reset.ovs := rfl
@[simp] theorem hardwareReset_cs (s : State) : (hardwareReset s).cs = State.reset.cs := rfl
@[simp] theorem hardwareReset_cause (s : State) : (hardwareReset s).cause = State.reset.cause := rfl
@[simp] theorem hardwareReset_fph (s : State) : (hardwareReset s).fph = State.reset.fph := rfl
@[simp] theorem hardwareReset_fu (s : State) : (hardwareReset s).fu = State.reset.fu := rfl
@[simp] theorem hardwareReset_lastv (s : State) : (hardwareReset s).lastv = State.reset.lastv := rfl
@[simp] theorem hardwareReset_ds (s : State) : (hardwareReset s).ds = State.reset.ds := rfl
@[simp] theorem hardwareReset_rsp (s : State) : (hardwareReset s).rsp = State.reset.rsp := rfl
@[simp] theorem hardwareReset_rspValid (s : State) : (hardwareReset s).rspValid = State.reset.rspValid := rfl
@[simp] theorem hardwareReset_offers (s : State) : (hardwareReset s).offers = s.offers := rfl
@[simp] theorem hardwareReset_answers (s : State) : (hardwareReset s).answers = s.answers := rfl
@[simp] theorem hardwareReset_resetPin (s : State) : (hardwareReset s).resetPin = State.reset.resetPin := rfl
@[simp] theorem hardwareReset_trace (s : State) : (hardwareReset s).trace = s.trace := rfl

end Sys2Proof.Machine
end

