-- ==== Sys2Proof/Laws/Ops.lean ====
section
/-! SUPPORT. For each shared operation, what it can do, said once. -/

namespace Sys2Proof.Machine

/-- What emitting one event can do: wait, fail, or go on, with an answer where one is needed. -/
theorem emitEvent_next {e : Event} {after : State → State} {s t : State} (h : emitEvent e after s = .next t) :
    (needsAnswer e = true ∧ s.answers = [] ∧ t = s) ∨
    (∃ rest, needsAnswer e = true ∧ s.answers = .fail :: rest ∧ t = eventFailed e (withAnswers rest s)) ∨
    (∃ y rest, needsAnswer e = true ∧ s.answers = .ok y :: rest ∧ t = after (eventOk e y (withAnswers rest s))) ∨
    (needsAnswer e = false ∧ t = after (eventOk e 0 s)) := by
  unfold emitEvent at h
  split at h
  · next hn =>
    split at h
    · next ha => exact .inl ⟨hn, ha, by injection h with h; exact h.symm⟩
    · next rest ha => exact .inr (.inl ⟨rest, hn, ha, by injection h with h; exact h.symm⟩)
    · next y rest ha => exact .inr (.inr (.inl ⟨y, rest, hn, ha, by injection h with h; exact h.symm⟩))
  · next hn => exact .inr (.inr (.inr ⟨by simpa using hn, by injection h with h; exact h.symm⟩))

/-- An emitted event always goes on. -/
theorem emitEvent_isNext (e : Event) (after : State → State) (s : State) : ∃ t, emitEvent e after s = .next t := by
  unfold emitEvent
  split
  · split <;> exact ⟨_, rfl⟩
  · exact ⟨_, rfl⟩

/-- A micro-step answers a next state exactly through the event at its index. -/
theorem emitAt_next {script : List Event} {done : State → State} {s t : State}
    (h : emitAt script done s = .next t) :
    ∃ e, script[s.u.toNat]? = some e ∧ emitEvent e (moveOn script done) s = .next t := by
  unfold emitAt at h
  split at h
  · cases h
  · next e he => exact ⟨e, he, h⟩

theorem emitAt_of_event {script : List Event} {done : State → State} {s : State} {e : Event}
    (h : script[s.u.toNat]? = some e) : emitAt script done s = emitEvent e (moveOn script done) s := by
  simp [emitAt, h]

theorem emitAt_of_none {script : List Event} {done : State → State} {s : State}
    (h : script[s.u.toNat]? = none) : emitAt script done s = .fault .badPosition := by
  simp [emitAt, h]

theorem emitEvent_ok {e : Event} {after : State → State} {s : State} {y : Byte} {rest : List Answer}
    (hn : needsAnswer e = true) (ha : s.answers = .ok y :: rest) :
    emitEvent e after s = .next (after (eventOk e y (withAnswers rest s))) := by
  simp [emitEvent, hn, ha]

theorem emitEvent_fail {e : Event} {after : State → State} {s : State} {rest : List Answer}
    (hn : needsAnswer e = true) (ha : s.answers = .fail :: rest) :
    emitEvent e after s = .next (eventFailed e (withAnswers rest s)) := by
  simp [emitEvent, hn, ha]

theorem emitEvent_wait {e : Event} {after : State → State} {s : State}
    (hn : needsAnswer e = true) (ha : s.answers = []) : emitEvent e after s = .next s := by
  simp [emitEvent, hn, ha]

theorem emitEvent_free {e : Event} {after : State → State} {s : State} (hn : needsAnswer e = false) :
    emitEvent e after s = .next (after (eventOk e 0 s)) := by
  simp [emitEvent, hn]

theorem moveOn_inside {script : List Event} {done : State → State} {s : State}
    (h : s.u.toNat + 1 < script.length) : moveOn script done s = { s with u := s.u + 1 } := by
  simp [moveOn, h]

theorem moveOn_last {script : List Event} {done : State → State} {s : State}
    (h : script.length ≤ s.u.toNat + 1) : moveOn script done s = done s := by
  simp [moveOn, Nat.not_lt.2 h]

/-- A transaction runs exactly where the phase performs one of its format. -/
theorem transact_next {f : Format} {script : List Event} {s t : State} (h : transact f script s = .next t) :
    phaseFormat s.ph = some f ∧ emitAt script completePhase s = .next t := by
  unfold transact at h
  split at h
  · next hf => exact ⟨hf, h⟩
  · cases h

theorem transact_of_format {f : Format} {script : List Event} {s : State} (h : phaseFormat s.ph = some f) :
    transact f script s = emitAt script completePhase s := by
  simp [transact, h]

/-- The Accept step of STB: unchanged unless idle, else the first position of P_STB. -/
theorem acceptStrobe_next {t : Strobe} {s s' : State} (h : acceptStrobe t s = .next s') :
    (isIdle s = true ∧ s' = beginOperation .stb .pStb { s with pa := strobeSelector t }) ∨
    (isIdle s = false ∧ s' = s) := by
  unfold acceptStrobe at h
  split at h
  · next hi => exact .inl ⟨hi, by injection h with h; exact h.symm⟩
  · next hi => exact .inr ⟨by simpa using hi, by injection h with h; exact h.symm⟩

/-- The Accept step of CMD: begun, halted for want of an Address, or unchanged unless idle. -/
theorem acceptCommand_next {c : Command} {s s' : State} (h : acceptCommand c s = .next s') :
    (isIdle s = true ∧ s.addrValid = true ∧
      s' = beginOperation .cmd .cIdle { s with opcLat := commandOpcode c, rep := 0 }) ∨
    (isIdle s = true ∧ s.addrValid = false ∧ s' = raiseProtocolViolation s) ∨
    (isIdle s = false ∧ s' = s) := by
  unfold acceptCommand at h
  split at h
  · next hi =>
    split at h
    · next hv => exact .inl ⟨hi, hv, by injection h with h; exact h.symm⟩
    · next hv => exact .inr (.inl ⟨hi, by simpa using hv, by injection h with h; exact h.symm⟩)
  · next hi => exact .inr (.inr ⟨by simpa using hi, by injection h with h; exact h.symm⟩)

end Sys2Proof.Machine
end

