-- ==== Sys2Proof/Laws/PerInstr.lean ====
section
/-! SUPPORT. Per-instruction families. `EncodedLength`: the length of an instruction's encoding is one its format has
(R90, R100 to R107, R109). -/

namespace Sys2Proof.Laws.EncodedLength

/-- The lengths in bytes of a format's encodings (R109, R107). -/
def allowed (f : Format) : List Nat :=
  match f with
  | .host => [3]
  | .registerWrite => [2]
  | .registerRead => [1]
  | .strobe => [1]
  | .frame => [9]
  | .packet => [5, 6, 7, 8]

/-- A well-formed instruction is encoded in a length of its format. -/
def Statement (i : Instr) : Prop := i.wellFormed = true → (encode i).length ∈ allowed i.format

theorem init : Statement .init := fun _ => List.mem_singleton_self _
theorem cmdOff : Statement .cmdOff := fun _ => List.mem_singleton_self _
theorem cmdOn50 : Statement .cmdOn50 := fun _ => List.mem_singleton_self _
theorem cmdOn100 : Statement .cmdOn100 := fun _ => List.mem_singleton_self _
theorem cmdPair : Statement .cmdPair := fun _ => List.mem_singleton_self _
theorem disc : Statement .disc := fun _ => List.mem_singleton_self _
theorem seta (hi lo : Byte) : Statement (.seta hi lo) := fun _ => List.mem_singleton_self _
theorem wreg (id value : Byte) : Statement (.wreg id value) := fun _ => List.mem_singleton_self _
theorem rreg (id : Byte) : Statement (.rreg id) := fun _ => List.mem_singleton_self _
theorem stbIdle : Statement .stbIdle := fun _ => List.mem_singleton_self _
theorem stbTxen : Statement .stbTxen := fun _ => List.mem_singleton_self _
theorem stbFtx : Statement .stbFtx := fun _ => List.mem_singleton_self _
theorem stbReset : Statement .stbReset := fun _ => List.mem_singleton_self _
theorem stbRxen : Statement .stbRxen := fun _ => List.mem_singleton_self _
theorem stbFrx : Statement .stbFrx := fun _ => List.mem_singleton_self _
theorem ww (id value : Byte) : Statement (.ww id value) := fun _ => List.mem_singleton_self _
theorem wr (id : BitVec 7) : Statement (.wr id) := fun _ => List.mem_singleton_self _
theorem ws (code : Byte) : Statement (.ws code) := fun _ => List.mem_singleton_self _
theorem wf (hi lo opcode : Byte) : Statement (.wf hi lo opcode) := fun _ => List.mem_singleton_self _
theorem wp (sync : Nat) (hi lo x : Byte) (rest : List Byte) : Statement (.wp sync hi lo x rest) := by
  intro h
  simp only [Instr.wellFormed, decide_eq_true_eq] at h
  simp only [encode, Instr.format, allowed, List.length_append, List.length_replicate, List.length_cons,
    List.mem_cons, List.not_mem_nil, or_false]
  omega

end Sys2Proof.Laws.EncodedLength
end

