-- ==== Sys2Proof/Laws/Step.lean ====
section
/-! SUPPORT. The step by the kind of state it starts from, so that no later proof unfolds `fetch`. -/

namespace Sys2Proof.Machine

theorem isIdle_iff {s : State} : isIdle s = true ↔ s.ph = .idle := by simp [isIdle]
theorem isHalted_iff {s : State} : isHalted s = true ↔ s.ph = .halt := by simp [isHalted]
theorem isBusy_iff {s : State} : isBusy s = true ↔ s.ph ≠ .idle ∧ s.ph ≠ .halt := by
  simp [isBusy, isIdle, isHalted]

theorem step_reset {s : State} (h : s.resetPin = true) : step s = .next (hardwareReset s) := by
  simp [step, fetch, h]

theorem step_halted {s : State} (hr : s.resetPin = false) (h : s.ph = .halt) : step s = .fault .halted := by
  simp [step, fetch, hr, isHalted, h]

theorem step_waiting {s : State} (hr : s.resetPin = false) (h : s.ph = .idle) (ho : s.offers = []) :
    step s = .next s := by
  simp [step, fetch, fetchWord, hr, isHalted, isIdle, h, ho]

theorem step_word {s : State} {w : HostWord} {rest : List HostWord} (hr : s.resetPin = false) (h : s.ph = .idle)
    (ho : s.offers = w :: rest) :
    step s = match decodeWord w with
      | .ok i => exec i { s with offers := rest }
      | .error _ => .next (refuseIllegal { s with offers := rest }) := by
  simp only [step, fetch, fetchWord, hr, isHalted, isIdle, h, ho]
  cases decodeWord w <;> rfl

theorem step_busy_fetch {s : State} (hr : s.resetPin = false) (hb : isBusy s = true) :
    step s = match busyInstr s with
      | some i => exec i s
      | none => emitAt (plainScript s) completePhase s := by
  obtain ⟨h1, h2⟩ := isBusy_iff.1 hb
  simp only [step, fetch, hr, isHalted, isIdle, beq_iff_eq, h1, h2, if_false, Bool.false_eq_true]
  cases busyInstr s <;> rfl

/-- The header a read id gives on the wire is the id with the read bit set. -/
theorem readHeader_readId (a : Byte) : readHeader ((readId a).setWidth 8) = readHeader a := by
  revert a; decide

/-- A busy block whose buffer does not end a DISC emits the event of its phase's script. -/
theorem step_busy_of_no_packet {s : State} (hr : s.resetPin = false) (hb : isBusy s = true)
    (hp : packetInstr s = none) : step s = emitAt (phaseScript s) completePhase s := by
  rw [step_busy_fetch hr hb]
  obtain ⟨h1, h2⟩ := isBusy_iff.1 hb
  simp only [busyInstr, hp]
  rcases hph : s.ph with _ | _ | _ | _ | _ | _ | _ | _ | _ | _ | _ | _ | _ | _ | _ | _ | _ | _ | _ | _ | _ <;>
    first
    | exact absurd hph h1
    | exact absurd hph h2
    | (simp only [phaseInstr, phaseScript, plainScript, hph, exec, execWs, execWw, execWr, execWf, transact,
        phaseFormat, if_true, readHeader_readId])
  · cases Config.table[s.ti]? <;> rfl
  · cases strobeOfSelector s.pa <;> rfl

end Sys2Proof.Machine
end

