-- ==== Sys2Proof/Tests/Slice0.lean ====
section
/-! SUPPORT. Tests on fixed values (their expected results are the vectors V<n> and programs P<n> of
95_test_vectors.md, or words written out from 30_encoding.md), and for each statement with hypotheses a witness that
its hypotheses can be met. What depends on an open parameter of Config stays open in them. -/

open Sys2Proof Sys2Proof.Machine

namespace Sys2Proof.Tests

/-- One field of the next state. -/
def field {α : Type} (o : Host.Outcome State Fault Refusal) (f : State → α) : Option α :=
  match o with
  | .next s => some (f s)
  | .fault _ => none
  | .refused _ => none

/-- An idle block with the words `words` on its port and the answers `answers` pending. -/
def idle (words : List HostWord) (answers : List Answer) : State :=
  { State.reset with offers := words, answers := answers }

/-- An idle block that holds the Address (1, 2). -/
def paired (words : List HostWord) (answers : List Answer) : State :=
  { idle words answers with addrHi := 0x01, addrLo := 0x02, addrValid := true }

/-- A busy block at a phase and a micro-step, its select record as the position says. -/
def busy (o : Operation) (p : Phase) (u : BitVec 4) (answers : List Answer) : State :=
  let s := { paired [] answers with op := o, ph := p, u := u, pa := 0x0A, pb := 0x10 }
  { s with cs := insideBracket s }

/-- A block in `D_FRX` with the received bytes in `BUF`. -/
def listened (u : BitVec 4) (bytes : List Byte) : State :=
  { busy .disc .dFrx u [] with len := BitVec.ofNat 8 bytes.length, buf := fillBuffer 0 bytes [] }

/-! ### Well-formed terms -/

/-- R107: five payload bytes after four sync bytes make nine. -/
theorem test_wellFormed_refuses_four_sync_bytes : (Instr.wp 4 1 2 3 []).wellFormed = false := by decide
/-- R107: `LEN <= 8`. -/
theorem test_wellFormed_refuses_long_tail : (Instr.wp 0 1 2 3 [0, 0, 0, 0]).wellFormed = false := by decide
theorem test_wellFormed_takes_three_sync_bytes : (Instr.wp 3 1 2 3 []).wellFormed = true := by decide

/-! ### Decoding: V1 to V8, and the formats of R100 to R107 -/

theorem test_decode_init : decodeTableWord 24 0x010000 = some .init := by decide
theorem test_decode_cmdOff : decodeTableWord 24 0x020000 = some .cmdOff := by decide
theorem test_decode_cmdOn50 : decodeTableWord 24 0x020100 = some .cmdOn50 := by decide
theorem test_decode_cmdOn100 : decodeTableWord 24 0x020200 = some .cmdOn100 := by decide
theorem test_decode_cmdPair : decodeTableWord 24 0x020300 = some .cmdPair := by decide
theorem test_decode_disc : decodeTableWord 24 0x030000 = some .disc := by decide
theorem test_decode_seta : decodeTableWord 24 0x040102 = some (.seta 0x01 0x02) := by decide
theorem test_decode_wreg : decodeTableWord 24 0x050A10 = some (.wreg 0x0A 0x10) := by decide
theorem test_decode_rreg : decodeTableWord 24 0x063B00 = some (.rreg 0x3B) := by decide
theorem test_decode_stbIdle : decodeTableWord 24 0x070000 = some .stbIdle := by decide
theorem test_decode_stbTxen : decodeTableWord 24 0x070100 = some .stbTxen := by decide
theorem test_decode_stbFtx : decodeTableWord 24 0x070200 = some .stbFtx := by decide
theorem test_decode_stbReset : decodeTableWord 24 0x070300 = some .stbReset := by decide
theorem test_decode_stbRxen : decodeTableWord 24 0x070400 = some .stbRxen := by decide
theorem test_decode_stbFrx : decodeTableWord 24 0x070500 = some .stbFrx := by decide
/-- `aaaaaaaa vvvvvvvv` with id 0x0A, value 0x10, the second byte at bits 15:8. -/
theorem test_decode_ww : decodeTableWord 16 0x100A = some (.ww 0x0A 0x10) := by decide
/-- `1aaaaaaa` with id 0x3B: the header 0xBB of V12. -/
theorem test_decode_wr : decodeTableWord 8 0b10111011 = some (.wr 0x3B) := by decide
/-- `ssssssss`. -/
theorem test_decode_ws : decodeTableWord 8 0b00110110 = some (.ws 0x36) := by decide
/-- The 72-bit pattern of V20. -/
theorem test_decode_wf : decodeTableWord 72
    0b011111110000011001010101000000010000000100000010000000101010101011111111 = some (.wf 0x01 0x02 0x02) := by
  decide
/-- The same nine bytes, the first at bits 7:0. -/
theorem test_decode_wf_low_byte_first : decodeTableWord 72 0xFFAA020201015506_7F = some (.wf 0x01 0x02 0x02) := by decide
/-- The bytes of V43, three sync bytes, the first at bits 7:0. -/
theorem test_decode_wp : decodeTableWord 64 0xAA99341201555555 = some (.wp 3 0x12 0x34 0x99 []) := by decide
/-- The bytes of V53, one byte after the terminator. -/
theorem test_decode_wp_tail : decodeTableWord 48 0x01555555AA00 = some (.wp 0 0x55 0x55 0x55 [0x00]) := by decide

/-! Illegal words, V9a to V9i, by the name of what is wrong. -/

theorem test_decode_reserved_opcodes : decodeWord 0x000000 = .error .reservedOpcode ∧
    decodeWord 0x080000 = .error .reservedOpcode ∧ decodeWord 0xFF0000 = .error .reservedOpcode := ⟨rfl, rfl, rfl⟩
theorem test_decode_operands_not_zero : decodeWord 0x010001 = .error .operandNotZero ∧
    decodeWord 0x010100 = .error .operandNotZero ∧ decodeWord 0x020101 = .error .operandNotZero ∧
    decodeWord 0x030001 = .error .operandNotZero ∧ decodeWord 0x063B01 = .error .operandNotZero ∧
    decodeWord 0x070001 = .error .operandNotZero := ⟨rfl, rfl, rfl, rfl, rfl, rfl⟩
theorem test_decode_selectors_out_of_range : decodeWord 0x020400 = .error .selectorOutOfRange ∧
    decodeWord 0x02FF00 = .error .selectorOutOfRange ∧ decodeWord 0x070600 = .error .selectorOutOfRange :=
  ⟨rfl, rfl, rfl⟩
/-- A header without its read bit, a frame with another constant byte, a packet that ends before its terminator (V49). -/
theorem test_decode_wire_errors : decode .registerRead [0x3B] = .error .readBitClear ∧
    decode .frame [0x7E, 0x06, 0x55, 0x01, 1, 2, 2, 0xAA, 0xFF] = .error .frameConstant ∧
    decode .packet [0x55, 0x01, 0x02, 0x03, 0x04] = .error .malformedPacket := ⟨rfl, rfl, rfl⟩
theorem test_encode_seta : encodeWord (.seta 0x01 0x02) = 0x040102 := by decide

/-! ### The parser: V40 to V59 -/

theorem test_parse_matches :
    parse [0x01, 0x12, 0x34, 0x00, 0xAA] = .matched 0x12 0x34 ∧
    parse [0x55, 0x01, 0xC3, 0x5A, 0x02, 0xAA] = .matched 0xC3 0x5A ∧
    parse [0x55, 0x55, 0x01, 0xAB, 0xCD, 0x01, 0xAA] = .matched 0xAB 0xCD ∧
    parse [0x55, 0x55, 0x55, 0x01, 0x12, 0x34, 0x99, 0xAA] = .matched 0x12 0x34 ∧
    parse [0x01, 0x55, 0x55, 0x55, 0xAA, 0x00] = .matched 0x55 0x55 ∧
    parse [0x55, 0x01, 0x11, 0x22, 0x33, 0xAA, 0x55, 0x55] = .matched 0x11 0x22 := by decide
theorem test_parse_mismatches :
    parse [0x55, 0x55, 0x55, 0x55, 0x01, 0x12, 0x34, 0xAA] = .mismatch ∧
    parse [0x01] = .mismatch ∧ parse [0x01, 0x02, 0x03, 0xAA] = .mismatch ∧
    parse [0x55, 0x01, 0x02, 0x03, 0x04] = .mismatch ∧
    parse [0xAA, 0x01, 0x02, 0x03, 0x04, 0xAA] = .mismatch ∧
    parse [0x55, 0x55, 0x02, 0xAB, 0xCD, 0x01, 0xAA] = .mismatch ∧
    parse [0x01, 0x02, 0x03, 0x04, 0xAB] = .mismatch := by decide
theorem test_parse_all_sync : parse [0x55] = .allSync ∧ parse (List.replicate 8 0x55) = .allSync := by decide
theorem test_verdict_lengths : verdict 0 [] = .noData ∧ verdict 9 [] = .oversize ∧ verdict 0x80 [] = .oversize ∧
    verdict 0xFF [] = .oversize := by decide

/-! ### One step of each instruction -/

/-- R165: INIT clears `INITED`. -/
theorem test_init_accept : field (exec .init { idle [] [] with inited := true }) (fun t => (t.ph, t.inited)) =
    some (.iReset, false) := by decide
/-- P4: CMD OFF from reset halts, `STATUS = 0x42`. -/
theorem test_cmdOff_without_address : field (exec .cmdOff (idle [] [])) (fun t => (t.ph, t.cause, statusByte t)) =
    some (.halt, .protocolViolation, 0x42) := by decide
/-- P1: `OPC_LAT = 0x02`. -/
theorem test_cmdOn50_accept : field (exec .cmdOn50 (paired [] [])) (fun t => (t.ph, t.opcLat)) =
    some (.cIdle, 0x02) := by decide
/-- V70: `CMD ON50` without an Address: `(2, 0, 0)`. -/
theorem test_cmdOn50_without_address : field (exec .cmdOn50 (idle [] [])) (fun t => (t.rsp.word, t.fph, t.op)) =
    some (0x20000, 0, .none) := by decide
theorem test_cmdOff_accept : field (exec .cmdOff (paired [] [])) (·.opcLat) = some Config.opcLightOff := rfl
theorem test_cmdOn100_accept : field (exec .cmdOn100 (paired [] [])) (·.opcLat) = some Config.opcLightOn100 := rfl
/-- R192 (b). -/
theorem test_cmdPair_accept : field (exec .cmdPair (paired [] [])) (·.opcLat) = some Config.opcPair := rfl
/-- R201, R218. -/
theorem test_disc_accept : field (exec .disc { idle [] [] with ds := .validated, it := 7 })
    (fun t => (t.ph, t.ds, t.it)) = some (.dRxen, .idle, 0) := by decide
/-- V91: `STATUS = 0x44`. -/
theorem test_seta : field (exec (.seta 0x01 0x02) (idle [] [])) (fun t => (t.addrHi, t.addrLo, statusByte t, t.trace)) =
    some (0x01, 0x02, 0x44, []) := by decide
theorem test_wreg_accept : field (exec (.wreg 0xBF 0x00) (idle [] [])) (fun t => (t.ph, t.pa, t.pb)) =
    some (.pWr, 0xBF, 0x00) := by decide
theorem test_rreg_accept : field (exec (.rreg 0x3B) (idle [] [])) (fun t => (t.ph, t.pa, t.op)) =
    some (.pRd, 0x3B, .rreg) := by decide
/-- R96: the selectors 0 to 5. -/
theorem test_stbIdle_accept : field (exec .stbIdle (idle [] [])) (·.pa) = some 0 := by decide
theorem test_stbTxen_accept : field (exec .stbTxen (idle [] [])) (·.pa) = some 1 := by decide
theorem test_stbFtx_accept : field (exec .stbFtx (idle [] [])) (·.pa) = some 2 := by decide
/-- R153: `STB RESET` does not clear `INITED`. -/
theorem test_stbReset_accept : field (exec .stbReset { idle [] [] with inited := true }) (fun t => (t.pa, t.inited)) =
    some (3, true) := by decide
/-- R157: `STB RXEN` does not move `DS`. -/
theorem test_stbRxen_accept : field (exec .stbRxen { idle [] [] with ds := .validated }) (fun t => (t.pa, t.ds)) =
    some (4, .validated) := by decide
theorem test_stbFrx_accept : field (exec .stbFrx (idle [] [])) (·.pa) = some 5 := by decide
/-- V10, third event. -/
theorem test_ww_sends_the_id : field (exec (.ww 0x0A 0x10) (busy .wreg .pWr 2 [.ok 0])) (·.trace) =
    some [⟨.tx 0x0A 200, .ok⟩] := by decide
/-- V72: the second `TX` fails. -/
theorem test_ww_second_byte_fails : field (exec (.ww 0x0A 0x10) (busy .wreg .pWr 3 [.fail]))
    (fun t => (t.ph, t.fph, t.fu, t.cs, t.op, t.rsp.word)) = some (.halt, 17, 3, true, .wreg, 0x10000) := by decide
/-- V12, third event: header 0xBB. -/
theorem test_wr_sends_the_header : field (exec (.wr 0x3B) (busy .rreg .pRd 2 [.ok 0])) (·.trace) =
    some [⟨.tx 0xBB 0, .ok⟩] := by decide
/-- V75: `RX` was answered 0x07, `DESEL` fails, the byte is not delivered. -/
theorem test_wr_desel_fails : field (exec (.wr 0x3B) { busy .rreg .pRd 4 [.fail] with rdata := 0x07 })
    (fun t => (t.rsp.word, t.rdata, t.fph, t.fu, t.cs)) = some (0x10000, 0x07, 18, 4, true) := by decide
/-- V76: `RDY` fails. -/
theorem test_ws_ready_fails : field (exec (.ws 0x36) (busy .stb .pStb 1 [.fail])) (fun t => (t.fph, t.fu, t.cs)) =
    some (19, 1, true) := by decide
/-- V16, last event, and the response. -/
theorem test_ws_settles : field (exec (.ws 0x36) (busy .stb .pStb 4 [])) (fun t => (t.trace, t.ph, t.rsp.word)) =
    some ([⟨.delay 20000, .ok⟩], .idle, 0) := by decide
/-- V20: the opcode 0x02 at offset 6, that is micro-step 8. -/
theorem test_wf_sends_the_opcode : field (exec (.wf 0x01 0x02 0x02) (busy .cmd .cBurst 8 [.ok 0])) (·.trace) =
    some [⟨.tx 0x02 0, .ok⟩] := by decide
/-- V77: the `TX(0x55, 0)` of the burst fails. -/
theorem test_wf_byte_fails : field (exec (.wf 0x01 0x02 0x02) (busy .cmd .cBurst 4 [.fail]))
    (fun t => (t.fph, t.fu, t.addrValid, t.op)) = some (6, 4, true, .cmd) := by decide
/-- V40: response `(0, 0x12, 0x34)`. -/
theorem test_wp_stores_the_address :
    field (step (listened 4 [0x01, 0x12, 0x34, 0x00, 0xAA])) (fun t => (t.addrHi, t.addrLo, t.rsp.word, t.ds)) =
      some (0x12, 0x34, 0x01234, .validated) := rfl
/-- V79: the `SEL` of the closing strobe fails, the Address stays. -/
theorem test_wp_closing_strobe_fails :
    field (step { listened 0 [0x55, 0x55, 0x01, 0xAB, 0xCD, 0x01, 0xAA] with answers := [.fail] })
      (fun t => (t.addrHi, t.addrLo, t.fph, t.fu, t.cs)) = some (0x01, 0x02, 16, 0, false) := rfl
/-- A mismatching packet leaves the Address. -/
theorem test_mismatch_leaves_the_address :
    field (step (listened 4 [0x55, 0x01, 0x02, 0x03, 0x04])) (fun t => (t.addrHi, t.addrLo, t.lastv, t.it)) =
      some (0x01, 0x02, .mismatch, 1) := by
  rw [step_busy_of_no_packet rfl rfl rfl]
  cases h : Config.discLimit <;>
    simp [field, emitAt, phaseScript, listened, busy, strobeScript, emitEvent, needsAnswer, moveOn, completePhase,
      finishDFrx, eventOk, afterEvent, record, fillBuffer, verdict, maxPkt, received, Memory.write, Memory.erase,
      Memory.insert, Memory.blank, Memory.read, parse, firstNonSync, syncByte, List.range, List.range.loop, loopBack,
      limitReached, h, paired, idle, enterPhase, State.reset]
  split <;> simp [complete]

/-! ### The machine -/

/-- V90. -/
theorem test_reset_status : statusByte State.reset = 0x00 := by decide
/-- V71: legality before the Address, the block stays idle. -/
theorem test_illegal_word : field (step (idle [0x020700] [])) (fun t => (t.ph, t.rsp.word, t.cause, t.trace)) =
    some (.idle, 0x30000, .none, []) := by decide
/-- V80: a halted block accepts nothing. -/
theorem test_halted_takes_no_word : field (step { idle [0x040102] [] with ph := .halt }) (·.addrValid) = none := by decide
/-- V93: reset inside the burst bracket. -/
theorem test_reset_in_burst : field (step { busy .cmd .cBurst 3 [.ok 0] with resetPin := true })
    (fun t => (t.ph, t.cs, t.addrValid, t.rspValid, t.trace)) = some (.idle, false, false, false, []) := by decide
/-- V73: a failed `SEL` does not set `CS`. -/
theorem test_failed_select : field (step (busy .wreg .pWr 0 [.fail])) (fun t => (t.cs, t.trace)) =
    some (false, [⟨.sel, .fail⟩]) := by decide
/-- V61: the length byte 9 goes to the report. -/
theorem test_length_nine_is_reported :
    field (step { busy .disc .dLen 4 [.ok 0] with rdata := 9 }) (fun t => (t.ph, t.len)) = some (.dReport, 9) := rfl
/-- P3: the last FIFO byte, `BI` stays. -/
theorem test_last_fifo_byte :
    field (step { busy .disc .dFifo 4 [.ok 0] with len := 7, bi := 6, rdata := 0xAA })
      (fun t => (t.ph, t.bi, Memory.read t.buf 6)) = some (.dIdle, 6, 0xAA) := rfl
/-- The step runs a placed word of each kind. -/
theorem test_placed_words_run :
    field (step (State.reset.withFetchWord 24 0x040102)) (·.addrLo) = some 0x02 ∧
    field (step (State.reset.withFetchWord 16 0x100A)) (fun t => (t.pa, t.pb, t.trace)) = some (0x0A, 0x10, [⟨.sel, .ok⟩]) ∧
    field (step (State.reset.withFetchWord 40 0xAA00341201)) (·.addrHi) = some 0x12 := ⟨rfl, rfl, rfl⟩

/-! ### Witnesses: the hypotheses of each statement, met by concrete states and operands -/

theorem witness_DecodeEncodeRoundTrip :
    (Instr.wp 3 1 2 3 []).wellFormed = true ∧ (Instr.wp 0 1 2 3 [4, 5, 6]).wellFormed = true := by decide
theorem witness_HostWordsMatchTheirEncodings :
    Instr.stbFrx.format = .host ∧ decodeWord 0x04FFFF = .ok (.seta 0xFF 0xFF) := ⟨rfl, rfl⟩
theorem witness_ParserAgreesWithPacketLayout :
    [0x55, 0x55, 0x55, 0x01, 0x12, 0x34, 0x99, (0xAA : Byte)].length ≤ 8 ∧
    decode .packet [0x55, 0x55, 0x55, 0x01, 0x12, 0x34, 0x99, 0xAA] = .ok (.wp 3 0x12 0x34 0x99 []) :=
  ⟨by decide, rfl⟩
/-- Both clauses at `LEN` 1 and 8; the second also at `s = 3`, the last offset that can match, and at `s = 4`. -/
theorem witness_ParserFollowsFirstNonSyncByte :
    (∀ i, i < 1 → Memory.read (fillBuffer 0 [0x55] []) i = 0x55) ∧
    (∀ i, i < 8 → Memory.read (fillBuffer 0 (List.replicate 8 0x55) []) i = 0x55) ∧
    Memory.read (fillBuffer 0 [0x01] []) 0 ≠ 0x55 ∧
    (∀ i, i < 3 → Memory.read (fillBuffer 0 [0x55, 0x55, 0x55, 0x01, 1, 2, 3, 0xAA] []) i = 0x55) ∧
    Memory.read (fillBuffer 0 [0x55, 0x55, 0x55, 0x01, 1, 2, 3, 0xAA] []) 3 ≠ 0x55 ∧
    (∀ i, i < 4 → Memory.read (fillBuffer 0 [0x55, 0x55, 0x55, 0x55, 0x01, 1, 2, 0xAA] []) i = 0x55) ∧
    Memory.read (fillBuffer 0 [0x55, 0x55, 0x55, 0x55, 0x01, 1, 2, 0xAA] []) 4 ≠ 0x55 := by decide
theorem witness_LengthByteDecidesTheBranch :
    verdict 1 [] = parse (received [] 1) ∧ verdict 8 [] = parse (received [] 8) ∧
    1 ≤ (1 : Byte).toNat ∧ (8 : Byte).toNat ≤ 8 ∧ 8 < (9 : Byte).toNat := by decide
theorem witness_VerdictIgnoresStaleBytes :
    (∀ i, i < (5 : Byte).toNat → Memory.read [(5, 1)] i = Memory.read [] i) ∧
      Memory.read [(5, 1)] 5 ≠ Memory.read [] 5 := by decide
theorem witness_SyncRunThenPayloadMatches :
    3 + 5 + ([] : List Byte).length ≤ 8 ∧ 0 + 5 + [1, 2, (3 : Byte)].length ≤ 8 := by decide
/-- InitIsAccepted, DiscIsAccepted, SetaAssignsTheAddress and PrimitiveOperationsAreAccepted ask for an idle block. -/
theorem witness_AcceptStatements : (idle [] []).ph = .idle := rfl
theorem witness_CommandIsAccepted : (paired [] []).ph = .idle ∧ (paired [] []).addrValid = true := ⟨rfl, rfl⟩
theorem witness_CommandWithoutAddressHalts : (idle [] []).ph = .idle ∧ (idle [] []).addrValid = false := ⟨rfl, rfl⟩
theorem witness_HostWordsHaveNoEffectUnlessIdle :
    Instr.init.format = .host ∧ (busy .wreg .pWr 0 []).ph ≠ .idle := by decide

/-! The micro-steps: each format at its first and last micro-step, answered ok, answered fail, and not answered. -/

theorem witness_RegisterWriteMicroSteps :
    phaseFormat (busy .wreg .pWr 0 []).ph = some .registerWrite ∧
    (busy .wreg .pWr 0 [.ok 0]).answers = .ok 0 :: [] ∧ (busy .wreg .pWr 0 [.ok 0]).u = 0 ∧
    (busy .wreg .pWr 4 [.fail]).answers = .fail :: [] ∧ (busy .wreg .pWr 4 [.fail]).u = 4 ∧
    (busy .wreg .pWr 5 []).u = 5 := ⟨rfl, rfl, rfl, rfl, rfl, rfl⟩
theorem witness_RegisterReadMicroSteps :
    phaseFormat (busy .rreg .pRd 0 []).ph = some .registerRead ∧
    (busy .rreg .pRd 4 [.ok 7]).answers = .ok 7 :: [] ∧ (busy .rreg .pRd 4 [.ok 7]).u = 4 ∧
    (busy .rreg .pRd 0 [.fail]).answers = .fail :: [] := ⟨rfl, rfl, rfl, rfl⟩
theorem witness_StrobeMicroSteps :
    phaseFormat (busy .stb .pStb 0 []).ph = some .strobe ∧
    (busy .stb .pStb 3 [.ok 0]).answers = .ok 0 :: [] ∧ (busy .stb .pStb 3 [.ok 0]).u = 3 ∧
    (busy .stb .pStb 4 []).u = 4 ∧ (busy .stb .pStb 0 [.fail]).answers = .fail :: [] := ⟨rfl, rfl, rfl, rfl, rfl⟩
/-- The byte clause at its two ends, micro-steps 2 and 10. -/
theorem witness_BurstMicroSteps :
    phaseFormat (busy .cmd .cBurst 0 []).ph = some .frame ∧
    (busy .cmd .cBurst 2 [.ok 0]).answers = .ok 0 :: [] ∧ 2 ≤ (busy .cmd .cBurst 2 [.ok 0]).u.toNat ∧
    [0x7F, 0x06, 0x55, 0x01, 0x01, 0x02, 0x02, 0xAA, (0xFF : Byte)][(2 : BitVec 4).toNat - 2]? = some 0x7F ∧
    (busy .cmd .cBurst 10 [.ok 0]).u.toNat ≤ 10 ∧
    [0x7F, 0x06, 0x55, 0x01, 0x01, 0x02, 0x02, 0xAA, (0xFF : Byte)][(10 : BitVec 4).toNat - 2]? = some 0xFF ∧
    (busy .cmd .cBurst 11 [.fail]).u = 11 ∧ (busy .cmd .cBurst 11 [.fail]).answers = .fail :: [] := by decide
theorem witness_PacketStoresItsAddress :
    (listened 4 [0x01, 1, 2, 3, 0xAA]).ph = .dFrx ∧ (listened 4 [0x01, 1, 2, 3, 0xAA]).u = 4 := ⟨rfl, rfl⟩
theorem witness_WireFormatsRunOnlyAtTheirPosition :
    phaseFormat (idle [] []).ph ≠ some .registerWrite ∧ phaseFormat (idle [] []).ph ≠ some .registerRead ∧
    phaseFormat (idle [] []).ph ≠ some .strobe ∧ phaseFormat (idle [] []).ph ≠ some .frame ∧
    ¬ ((listened 3 []).ph = .dFrx ∧ (listened 3 []).u = 4) := by decide
theorem witness_WireFormatsWaitOrNameTheirStop :
    (busy .wreg .pWr 4 []).u.toNat ≤ 4 ∧ 6 ≤ (busy .wreg .pWr 6 []).u.toNat ∧
    (busy .rreg .pRd 4 []).u.toNat ≤ 4 ∧ 5 ≤ (busy .rreg .pRd 5 []).u.toNat ∧
    (busy .stb .pStb 3 []).u.toNat ≤ 3 ∧ 5 ≤ (busy .stb .pStb 5 []).u.toNat ∧
    (busy .cmd .cBurst 11 []).u.toNat ≤ 11 ∧ 12 ≤ (busy .cmd .cBurst 12 []).u.toNat ∧
    (busy .cmd .cBurst 11 []).answers = [] := by decide
theorem witness_StepRunsTheDecodedWord :
    (idle [0x040102] []).resetPin = false ∧ (idle [0x040102] []).ph = .idle ∧
    (idle [0x040102] []).offers = 0x040102 :: [] ∧ decodeWord 0x040102 = .ok (.seta 0x01 0x02) :=
  ⟨rfl, rfl, rfl, rfl⟩
/-- A state in every phase; the table clauses hold at index 0, whichever length `CFG` has. -/
theorem witness_StepRunsTheTransactionOfItsPhase :
    (∀ o p u, (busy o p u []).resetPin = false ∧ (busy o p u []).ph = p ∧ (busy o p u []).u = u) ∧
    (∀ h : 0 < Config.table.length, Config.table[(busy .init .iTable 5 []).ti]? = some Config.table[0]) ∧
    (Config.table.length = 0 → Config.table.length ≤ (busy .init .iTable 5 []).ti) :=
  ⟨fun _ _ _ => ⟨rfl, rfl, rfl⟩, fun h => List.getElem?_eq_getElem h, fun h => Nat.le_of_eq h⟩
/-- The single events at index 0 and past it, the selectors 5 and 6 of `P_STB`. -/
theorem witness_StepRunsTheTransactionOfItsPhase_indices :
    (busy .cmd .cWait 0 []).u = 0 ∧ (busy .disc .dWait 1 []).u ≠ 0 ∧ (busy .disc .dReport 15 []).u ≠ 0 ∧
    ({ busy .stb .pStb 0 [] with pa := 5 } : State).pa = strobeSelector .flushRx ∧ 5 < (6 : Byte).toNat := by decide
/-- `D_FRX` with a packet of 5 and of 8 bytes at its last micro-step; before it; with 9 bytes; with no packet. -/
theorem witness_StepRunsTheTransactionOfItsPhase_packet :
    decode .packet (received (listened 4 [0x01, 1, 2, 3, 0xAA]).buf 5) = .ok (.wp 0 1 2 3 []) ∧
    (listened 4 [0x55, 0x55, 0x55, 0x01, 1, 2, 3, 0xAA]).len.toNat ≤ 8 ∧
    decode .packet (received (listened 4 [0x55, 0x55, 0x55, 0x01, 1, 2, 3, 0xAA]).buf 8) = .ok (.wp 3 1 2 3 []) ∧
    (listened 3 [0x01, 1, 2, 3, 0xAA]).u ≠ 4 ∧ 8 < (9 : Byte).toNat ∧
    ∀ i, decode .packet (received (listened 4 [0x55]).buf 1) ≠ .ok i :=
  ⟨rfl, by decide, rfl, by decide, by decide, fun _ h => nomatch h⟩
theorem witness_StepRunsTheReceivedPacket :
    (listened 4 [0x01, 1, 2, 3, 0xAA]).resetPin = false ∧ (listened 4 [0x01, 1, 2, 3, 0xAA]).ph = .dFrx ∧
    (listened 4 [0x01, 1, 2, 3, 0xAA]).u = 4 ∧ (listened 4 [0x01, 1, 2, 3, 0xAA]).len.toNat ≤ 8 ∧
    decode .packet (received (listened 4 [0x01, 1, 2, 3, 0xAA]).buf 5) = .ok (.wp 0 1 2 3 []) :=
  ⟨rfl, rfl, rfl, by decide, rfl⟩
theorem witness_IllegalWordIsRefusedInPlace :
    (idle [0x020700] []).resetPin = false ∧ (idle [0x020700] []).ph = .idle ∧
    (idle [0x020700] []).offers = 0x020700 :: [] ∧ decodeWord 0x020700 = .error .selectorOutOfRange :=
  ⟨rfl, rfl, rfl, rfl⟩
/-- An event that is answered, an event that needs no answer, and an event not yet answered. -/
theorem witness_BusyStepEmitsTheEventOfItsPosition :
    nextEvent (busy .wreg .pWr 2 [.ok 0]) = some (.tx 0x0A 200) ∧ needsAnswer (.tx 0x0A 200) = true ∧
    (busy .wreg .pWr 2 [.ok 0]).answers = .ok 0 :: [] ∧
    nextEvent (busy .wreg .pWr 5 []) = some (.delay 200) ∧ needsAnswer (.delay 200) = false ∧
    (busy .wreg .pWr 2 []).answers = [] ∧ (busy .wreg .pWr 2 []).resetPin = false :=
  ⟨rfl, rfl, rfl, rfl, rfl, rfl, rfl⟩
theorem witness_TransportFailureHalts :
    (busy .wreg .pWr 3 [.fail]).resetPin = false ∧ nextEvent (busy .wreg .pWr 3 [.fail]) = some (.tx 0x10 200) ∧
    needsAnswer (.tx 0x10 200) = true ∧ (busy .wreg .pWr 3 [.fail]).answers = .fail :: [] := ⟨rfl, rfl, rfl, rfl⟩
theorem witness_HaltedBlockTakesNoStep :
    (busy .wreg .halt 3 []).ph = .halt ∧ (busy .wreg .halt 3 []).resetPin = false := ⟨rfl, rfl⟩
theorem witness_HardwareResetGivesResetValues :
    ({ busy .wreg .pWr 3 [] with resetPin := true } : State).resetPin = true := rfl
theorem witness_ReadHeaderSetsBitSeven : 0x80 ≤ (0x80 : Byte).toNat ∧ (0x7F : Byte).toNat < 0x80 := by decide

/-! The phase tables. `CFG` and `DISC_LIMIT` are open: exactly one of the clauses about them applies, whichever value
they have. -/

theorem witness_InitPhaseTable :
    (busy .init .iReset 4 []).ph = .iReset ∧ (busy .init .iTable 5 []).ph = .iTable ∧
    (busy .init .iPower 5 []).ph = .iPower ∧
    (0 < Config.table.length ∨ Config.table.length = 0) ∧
    (∀ h : 0 < Config.table.length, Config.table[(busy .init .iTable 5 []).ti]? = some Config.table[0]) :=
  ⟨rfl, rfl, rfl, by omega, fun h => List.getElem?_eq_getElem h⟩
/-- `C_WAIT` on both sides of the 50th cycle. -/
theorem witness_CommandPhaseTable :
    (busy .cmd .cIdle 4 []).ph = .cIdle ∧ (busy .cmd .cFtx 4 []).ph = .cFtx ∧
    (busy .cmd .cBurst 11 []).ph = .cBurst ∧ (busy .cmd .cTxen 4 []).ph = .cTxen ∧
    (busy .cmd .cWait 0 []).ph = .cWait ∧ (48 : BitVec 6).toNat + 1 < 50 ∧ 50 ≤ (49 : BitVec 6).toNat + 1 := by
  decide
/-- `D_LEN` at the lengths 0, 1, 8 and 9; `D_FIFO` on both sides of the last byte. -/
theorem witness_DiscoveryPhaseTable :
    (busy .disc .dRxen 4 []).ph = .dRxen ∧ (busy .disc .dCfg 5 []).ph = .dCfg ∧
    (busy .disc .dWait 0 []).ph = .dWait ∧ (busy .disc .dLen 4 []).ph = .dLen ∧
    (busy .disc .dFifo 4 []).ph = .dFifo ∧ (busy .disc .dReport 0 []).ph = .dReport ∧
    (busy .disc .dIdle 4 []).ph = .dIdle ∧ (busy .disc .dFrx 4 []).ph = .dFrx ∧
    8 < (9 : Byte).toNat ∧ 1 ≤ (1 : Byte).toNat ∧ (8 : Byte).toNat ≤ 8 ∧
    (6 : BitVec 3).toNat + 1 < (8 : Byte).toNat ∧ (8 : Byte).toNat ≤ (7 : BitVec 3).toNat + 1 := by decide
theorem witness_DiscoveryIterationEnds :
    (listened 4 [0x01, 1, 2, 3, 0xAA]).ph = .dFrx ∧
    verdict (listened 4 [0x01, 1, 2, 3, 0xAA]).len (listened 4 [0x01, 1, 2, 3, 0xAA]).buf = .matched 1 2 ∧
    verdict (listened 4 [0x55]).len (listened 4 [0x55]).buf = .allSync := by decide
/-- Whatever `DISC_LIMIT` is, one of the two clauses about it applies at every `IT`. -/
theorem witness_DiscLimitClauses (it : Nat) :
    (∃ limit, Config.discLimit = some limit ∧ limit.val ≤ it + 1) ∨
    (∀ limit, Config.discLimit = some limit → it + 1 < limit.val) := by
  by_cases h : ∃ limit, Config.discLimit = some limit ∧ limit.val ≤ it + 1
  · exact .inl h
  · exact .inr fun limit e => Nat.lt_of_not_le fun hl => h ⟨limit, e, hl⟩
theorem witness_PrimitiveOperationsEnd :
    (busy .wreg .pWr 5 []).ph = .pWr ∧ (busy .rreg .pRd 4 []).ph = .pRd ∧
    ({ busy .stb .pStb 4 [] with pa := 5 } : State).pa = strobeSelector .flushRx := ⟨rfl, rfl, rfl⟩

/-! Runs. -/

theorem witness_PhaseRunsItsScript :
    (busy .wreg .pWr 0 (List.replicate 5 (.ok 0))).resetPin = false ∧
    isBusy (busy .wreg .pWr 0 (List.replicate 5 (.ok 0))) = true ∧
    (busy .wreg .pWr 0 (List.replicate 5 (.ok 0))).u = 0 ∧
    phaseScript (busy .wreg .pWr 0 (List.replicate 5 (.ok 0))) ≠ [] ∧
    (List.replicate 5 (0 : Byte)).length =
      transportEvents (phaseScript (busy .wreg .pWr 0 (List.replicate 5 (.ok 0)))) ∧
    (busy .wreg .pWr 0 (List.replicate 5 (.ok 0))).answers = (List.replicate 5 (0 : Byte)).map .ok ++ [] := by decide
theorem witness_WregRunsItsTransaction :
    (idle [0x050A10] (List.replicate 5 (.ok 0))).resetPin = false ∧
    (idle [0x050A10] (List.replicate 5 (.ok 0))).ph = .idle ∧ decodeWord 0x050A10 = .ok (.wreg 0x0A 0x10) ∧
    (idle [0x050A10] (List.replicate 5 (.ok 0))).offers = 0x050A10 :: [] ∧ (List.replicate 5 (0 : Byte)).length = 5 ∧
    (idle [0x050A10] (List.replicate 5 (.ok 0))).answers = (List.replicate 5 (0 : Byte)).map .ok ++ [] :=
  ⟨rfl, rfl, rfl, rfl, rfl, rfl⟩
theorem witness_RregReturnsTheByteRead :
    decodeWord 0x063B00 = .ok (.rreg 0x3B) ∧ (idle [0x063B00] [.ok 0, .ok 0, .ok 0, .ok 7, .ok 0]).ph = .idle ∧
    (idle [0x063B00] [.ok 0, .ok 0, .ok 0, .ok 7, .ok 0]).resetPin = false ∧
    (idle [0x063B00] [.ok 0, .ok 0, .ok 0, .ok 7, .ok 0]).offers = 0x063B00 :: [] ∧
    (idle [0x063B00] [.ok 0, .ok 0, .ok 0, .ok 7, .ok 0]).answers =
      .ok 0 :: .ok 0 :: .ok 0 :: .ok 7 :: .ok 0 :: [] := ⟨rfl, rfl, rfl, rfl, rfl⟩
theorem witness_StbSendsItsStrobe :
    (Strobe.flushRx, Instr.stbFrx) ∈ [(Strobe.idle, Instr.stbIdle), (.txEnable, .stbTxen), (.flushTx, .stbFtx),
      (.reset, .stbReset), (.rxEnable, .stbRxen), (.flushRx, .stbFrx)] ∧
    decodeWord 0x070500 = .ok .stbFrx ∧ (idle [0x070500] (List.replicate 4 (.ok 0))).ph = .idle ∧
    (idle [0x070500] (List.replicate 4 (.ok 0))).resetPin = false ∧
    (idle [0x070500] (List.replicate 4 (.ok 0))).offers = 0x070500 :: [] ∧ (List.replicate 4 (0 : Byte)).length = 4 ∧
    (idle [0x070500] (List.replicate 4 (.ok 0))).answers = (List.replicate 4 (0 : Byte)).map .ok ++ [] :=
  ⟨by decide, rfl, rfl, rfl, rfl, rfl, rfl⟩
theorem witness_InitReplaysTheTable :
    decodeWord 0x010000 = .ok .init ∧
    (idle [0x010000] ((List.replicate (9 + 5 * Config.table.length) (0 : Byte)).map .ok)).ph = .idle ∧
    (idle [0x010000] ((List.replicate (9 + 5 * Config.table.length) (0 : Byte)).map .ok)).resetPin = false ∧
    (idle [0x010000] ((List.replicate (9 + 5 * Config.table.length) (0 : Byte)).map .ok)).offers = 0x010000 :: [] ∧
    (List.replicate (9 + 5 * Config.table.length) (0 : Byte)).length = 9 + 5 * Config.table.length ∧
    (idle [0x010000] ((List.replicate (9 + 5 * Config.table.length) (0 : Byte)).map .ok)).answers =
      (List.replicate (9 + 5 * Config.table.length) (0 : Byte)).map .ok ++ [] :=
  ⟨rfl, rfl, rfl, rfl, List.length_replicate, (List.append_nil _).symm⟩
theorem witness_CommandSendsFiftyCycles :
    (Command.lightOff, Instr.cmdOff) ∈ [(Command.lightOff, Instr.cmdOff), (.lightOn50, .cmdOn50),
      (.lightOn100, .cmdOn100), (.pair, .cmdPair)] ∧
    decodeWord 0x020000 = .ok .cmdOff ∧
    (paired [0x020000] ((List.replicate 1200 (0 : Byte)).map .ok)).ph = .idle ∧
    (paired [0x020000] ((List.replicate 1200 (0 : Byte)).map .ok)).addrValid = true ∧
    (paired [0x020000] ((List.replicate 1200 (0 : Byte)).map .ok)).resetPin = false ∧
    (paired [0x020000] ((List.replicate 1200 (0 : Byte)).map .ok)).offers = 0x020000 :: [] ∧
    (List.replicate 1200 (0 : Byte)).length = 1200 ∧
    (paired [0x020000] ((List.replicate 1200 (0 : Byte)).map .ok)).answers =
      (List.replicate 1200 (0 : Byte)).map .ok ++ [] :=
  ⟨by decide, rfl, rfl, rfl, rfl, rfl, List.length_replicate, (List.append_nil _).symm⟩
/-- Length byte 0 (no data), 9 (oversize), 1 (all sync), 5 and 8 (a match): the transport's bytes for one iteration. -/
theorem witness_DiscoveryIterationRuns :
    (∀ ys : List Byte, (busy .disc .dRxen 0 (ys.map .ok)).ph = .dRxen ∧ (busy .disc .dRxen 0 (ys.map .ok)).u = 0 ∧
      (busy .disc .dRxen 0 (ys.map .ok)).resetPin = false ∧
      (busy .disc .dRxen 0 (ys.map .ok)).answers = ys.map .ok ++ []) ∧
    rxBytes (iterationScript 0) (List.replicate 22 0) = [0] ∧ transportEvents (iterationScript 0) = 22 ∧
    rxBytes (iterationScript 9) (List.replicate 22 9) = [9] ∧ transportEvents (iterationScript 9) = 22 ∧
    rxBytes (iterationScript 1) (List.replicate 14 1 ++ List.replicate 13 0x55) = [1, 0x55] ∧
    transportEvents (iterationScript 1) = 27 ∧
    rxBytes (iterationScript 5)
      (List.replicate 14 5 ++ List.replicate 5 1 ++ List.replicate 5 2 ++ List.replicate 5 3 ++ List.replicate 5 4 ++
        List.replicate 13 0xAA) = [5, 1, 2, 3, 4, 0xAA] ∧
    transportEvents (iterationScript 5) = 47 ∧ parse [1, 2, 3, 4, 0xAA] = .matched 2 3 ∧
    parse [0x55] = .allSync := by
  refine ⟨fun _ => ⟨rfl, rfl, rfl, (List.append_nil _).symm⟩, rfl, rfl, rfl, rfl, rfl, rfl, rfl, rfl, ?_, ?_⟩ <;> decide
/-- The boundary length 8: V43, the terminator in the last byte read. -/
theorem witness_DiscoveryIterationRuns_eight :
    rxBytes (iterationScript 8)
      (List.replicate 14 8 ++ [0x55, 0x55, 0x55, 0x01, 0x12, 0x34, 0x99, (0xAA : Byte)].flatMap (List.replicate 5) ++
        List.replicate 8 0) = [8, 0x55, 0x55, 0x55, 0x01, 0x12, 0x34, 0x99, 0xAA] ∧
    transportEvents (iterationScript 8) = 62 ∧
    parse [0x55, 0x55, 0x55, 0x01, 0x12, 0x34, 0x99, 0xAA] = .matched 0x12 0x34 := ⟨rfl, rfl, by decide⟩

/-! Invariants and whole-machine rules. -/

theorem witness_busy_spec (a : List Answer) : SpecInvariant (busy .wreg .pWr 2 a) := by
  constructor <;> simp [busy, paired, idle, State.reset, isBusy, isIdle, isHalted, insideBracket, phaseFormat,
    deselIndex, phaseOperation]
theorem witness_busy_position (a : List Answer) : PositionInvariant (busy .wreg .pWr 2 a) := by
  constructor <;> simp [busy, paired, idle, State.reset, isBusy, isIdle, isHalted, insideBracket, phaseFormat,
    deselIndex, phaseOperation, phaseLength, Memory.wf, Memory.risingFrom]
theorem witness_StepKeepsSpecInvariant :
    SpecInvariant (busy .wreg .pWr 2 [.ok 0]) ∧ ∃ t, step (busy .wreg .pWr 2 [.ok 0]) = .next t :=
  ⟨witness_busy_spec _, _, rfl⟩
theorem witness_StepKeepsPositionInvariant :
    PositionInvariant (busy .wreg .pWr 2 [.fail]) ∧ ∃ t, step (busy .wreg .pWr 2 [.fail]) = .next t :=
  ⟨witness_busy_position _, _, rfl⟩
theorem witness_StepKeepsBracketDiscipline :
    PositionInvariant { busy .wreg .pWr 2 [.ok 0] with trace := [⟨.sel, .ok⟩, ⟨.rdy, .ok⟩] } ∧
    Bracketed { busy .wreg .pWr 2 [.ok 0] with trace := [⟨.sel, .ok⟩, ⟨.rdy, .ok⟩] } ∧
    (busy .wreg .pWr 2 [.ok 0]).resetPin = false ∧
    ∃ t, step { busy .wreg .pWr 2 [.ok 0] with trace := [⟨.sel, .ok⟩, ⟨.rdy, .ok⟩] } = .next t := by
  refine ⟨?_, rfl, rfl, _, rfl⟩
  have h := witness_busy_position [.ok 0]
  exact ⟨h.operation_of_phase, h.micro_step, h.table_index, h.strobe_selector, h.select_exact, h.buffer_form⟩
theorem witness_InvariantStatesStopOnlyHalted : PositionInvariant (busy .wreg .pWr 2 []) := witness_busy_position _
theorem witness_RunsKeepInvariants :
    SpecInvariant (busy .wreg .pWr 2 [.ok 0, .ok 0]) ∧ PositionInvariant (busy .wreg .pWr 2 [.ok 0, .ok 0]) ∧
    (∃ t, core.run 2 (busy .wreg .pWr 2 [.ok 0, .ok 0]) = .next t) ∧
    ∃ t, core.run 2 { State.reset with offers := [0x050A10], answers := [.ok 0] } = .next t :=
  ⟨witness_busy_spec _, witness_busy_position _, ⟨_, rfl⟩, ⟨_, rfl⟩⟩
/-- AddressIsWrittenOnlyBySetaAndDisc, FlagsFollowTheirRules, DiscoveryStateMovesAsStated and
CauseIsWrittenOnlyOnHalt ask for a step that is no reset: the acceptance of SETA, the end of a matching DISC, a
transport failure, a CMD without an Address. -/
theorem witness_StepRules :
    field (step (idle [0x040102] [])) (·.addrValid) = some true ∧
    field (step (listened 4 [0x01, 1, 2, 3, 0xAA])) (·.ds) = some .validated ∧
    field (step (busy .disc .dRxen 4 [])) (·.ds) = some .listening ∧
    field (step { busy .disc .dLen 4 [.ok 0] with rdata := 8 }) (·.ds) = some .pending ∧
    field (step (busy .wreg .pWr 3 [.fail])) (·.cause) = some .transportFault ∧
    field (step (idle [0x020000] [])) (·.cause) = some .protocolViolation ∧
    field (step (busy .disc .dReport 0 [])) (·.ovs) = some true ∧
    (idle [0x040102] []).resetPin = false ∧ (busy .disc .dReport 0 []).resetPin = false :=
  ⟨rfl, rfl, rfl, rfl, rfl, rfl, rfl, rfl, rfl⟩
theorem witness_BusyBlockIgnoresTheCommandPort :
    (busy .cmd .cBurst 3 [.ok 0]).resetPin = false ∧ isBusy (busy .cmd .cBurst 3 [.ok 0]) = true ∧
    ∃ t, step (busy .cmd .cBurst 3 [.ok 0]) = .next t := ⟨rfl, rfl, _, rfl⟩
theorem witness_StepEmitsAtMostOneEvent : ∃ t, step (busy .cmd .cBurst 3 [.ok 0]) = .next t := ⟨_, rfl⟩
theorem witness_SelectRecordFollowsTheEvents :
    (busy .wreg .pWr 0 [.ok 0]).resetPin = false ∧
    field (step (busy .wreg .pWr 0 [.ok 0])) (fun t => (t.trace, t.cs)) = some ([⟨.sel, .ok⟩], true) := by decide

end Sys2Proof.Tests
end

section
/-! The packet that ends a DISC and the parser: what the decoder reads as a packet, the parser matches, so a busy block
always emits the event of its phase's script and then completes that phase. -/

namespace Sys2Proof.Machine

/-- A leading sync byte moves the payload by one index and changes nothing else (R210). -/
theorem parse_cons_sync (more : List Byte) : parse (syncByte :: more) = parse more := by
  cases h : firstNonSync more <;> simp [parse, firstNonSync, h, Nat.add_right_comm _ 1]

/-- What the layout of R107 reads as a packet, the parser of R210 matches with the same address. -/
theorem parse_of_decodePacketFrom {bytes : List Byte} {n : Nat} {i : Instr} (h : decodePacketFrom n bytes = .ok i) :
    ∃ sync hi lo x rest, i = .wp sync hi lo x rest ∧ parse bytes = .matched hi lo := by
  fun_induction decodePacketFrom n bytes with
  | case1 => cases h
  | case2 n more ih =>
    rw [parse_cons_sync]
    exact ih h
  | case3 n b hb hi lo x t rest hdt =>
    cases h
    obtain ⟨rfl, rfl⟩ := hdt
    exact ⟨n, hi, lo, x, rest, rfl, by simp [parse, firstNonSync, hb]⟩
  | case4 => cases h
  | case5 => cases h

/-- The packet that ends a DISC carries the address of the verdict on `LEN` and `BUF`. -/
theorem packetInstr_matched {s : State} {i : Instr} (h : packetInstr s = some i) :
    s.ph = .dFrx ∧ s.u = 4 ∧
      ∃ sync hi lo x rest, i = .wp sync hi lo x rest ∧ verdict s.len s.buf = .matched hi lo := by
  unfold packetInstr at h
  split at h
  · next hpos =>
    obtain ⟨hph, hu, hlen⟩ := hpos
    split at h
    · next j hj =>
      cases h
      have hbytes : decodePacketFrom 0 (received s.buf s.len.toNat) = .ok i := by
        simpa [decode, show s.len.toNat ≤ 8 from hlen] using hj
      obtain ⟨sync, hi, lo, x, rest, hi_eq, hparse⟩ := parse_of_decodePacketFrom hbytes
      have hne : s.len.toNat ≠ 0 := by
        intro h0
        rw [h0] at hbytes
        cases hbytes
      exact ⟨hph, hu, sync, hi, lo, x, rest, hi_eq, by simp [verdict, hne, Nat.not_lt.2 hlen, hparse]⟩
    · cases h
  · cases h

/-- A busy block emits the event of its phase's script, and the phase-completion action follows the last one (R45). -/
theorem step_busy {s : State} (hr : s.resetPin = false) (hb : isBusy s = true) :
    step s = emitAt (phaseScript s) completePhase s := by
  cases hp : packetInstr s with
  | none => exact step_busy_of_no_packet hr hb hp
  | some i =>
    obtain ⟨hph, hu, sync, hi, lo, x, rest, rfl, hv⟩ := packetInstr_matched hp
    have hstep : step s = execWp sync hi lo x rest s := by
      rw [step_busy_fetch hr hb]
      simp only [busyInstr, hp]
      rfl
    rw [hstep]
    simp [execWp, hph, hu, phaseScript, emitAt, strobeScript, emitEvent, needsAnswer, moveOn, eventOk, record,
      completePhase, finishDFrx, hv]

end Sys2Proof.Machine
end
section
/-! The step by what it can do, said once: `StepResult` lists every way a step answers a next state, with its guards. -/

namespace Sys2Proof.Machine

/-- The host operation of a command (R93). -/
def commandInstr (c : Command) : Instr :=
  match c with
  | .lightOff => .cmdOff
  | .lightOn50 => .cmdOn50
  | .lightOn100 => .cmdOn100
  | .pair => .cmdPair

/-- The host operation of a strobe (R96). -/
def strobeInstr (t : Strobe) : Instr :=
  match t with
  | .idle => .stbIdle
  | .txEnable => .stbTxen
  | .flushTx => .stbFtx
  | .reset => .stbReset
  | .rxEnable => .stbRxen
  | .flushRx => .stbFrx

/-- The Accept steps of an idle block: the operation and the state it leaves (R133, R136, R153, R165, R183, R201,
R241, R258). -/
inductive Accepted (s : State) : Instr → State → Prop
  | init : Accepted s .init (beginOperation .init .iReset { s with inited := false })
  | command (c : Command) (hv : s.addrValid = true) :
      Accepted s (commandInstr c) (beginOperation .cmd .cIdle { s with opcLat := commandOpcode c, rep := 0 })
  | violation (c : Command) (hv : s.addrValid = false) : Accepted s (commandInstr c) (raiseProtocolViolation s)
  | disc : Accepted s .disc (beginOperation .disc .dRxen { s with it := 0, ds := .idle })
  | seta (hi lo : Byte) :
      Accepted s (.seta hi lo) (complete .ok 0 0 { s with addrHi := hi, addrLo := lo, addrValid := true })
  | wreg (id value : Byte) : Accepted s (.wreg id value) (beginOperation .wreg .pWr { s with pa := id, pb := value })
  | rreg (id : Byte) : Accepted s (.rreg id) (beginOperation .rreg .pRd { s with pa := id })
  | strobe (t : Strobe) : Accepted s (strobeInstr t) (beginOperation .stb .pStb { s with pa := strobeSelector t })

theorem acceptCommand_accepted {c : Command} {s t : State} (hi : isIdle s = true)
    (h : acceptCommand c s = .next t) : Accepted s (commandInstr c) t := by
  obtain ⟨-, hv, rfl⟩ | ⟨-, hv, rfl⟩ | ⟨hn, -⟩ := acceptCommand_next h
  · exact .command c hv
  · exact .violation c hv
  · simp [hi] at hn

theorem acceptStrobe_accepted {k : Strobe} {s t : State} (hi : isIdle s = true)
    (h : acceptStrobe k s = .next t) : Accepted s (strobeInstr k) t := by
  obtain ⟨-, rfl⟩ | ⟨hn, -⟩ := acceptStrobe_next h
  · exact .strobe k
  · simp [hi] at hn

/-- An idle block performs no transaction of any format. -/
theorem transact_idle_ne_next {f : Format} {script : List Event} {s t : State} (h : s.ph = .idle) :
    transact f script s ≠ .next t := by
  intro ht
  obtain ⟨hf, -⟩ := transact_next ht
  simp [phaseFormat, h] at hf

/-- The shape that the Accept steps without a guard share: taken when idle. -/
theorem accepted_of_idle {i : Instr} {s t t' : State} (hi : isIdle s = true)
    (he : (if isIdle s then (.next t' : Host.Outcome State Fault Refusal) else .next s) = .next t)
    (ha : Accepted s i t') : Accepted s i t := by
  simp only [hi, if_true, Host.Outcome.next.injEq] at he
  exact he ▸ ha

/-- What an instruction does in an idle block: a host operation is accepted, a wire format has no next state. -/
theorem exec_idle_next {i : Instr} {s t : State} (h : s.ph = .idle) (he : exec i s = .next t) : Accepted s i t := by
  have hidle : isIdle s = true := isIdle_iff.2 h
  cases i with
  | init => exact accepted_of_idle hidle he .init
  | cmdOff => exact acceptCommand_accepted hidle he
  | cmdOn50 => exact acceptCommand_accepted hidle he
  | cmdOn100 => exact acceptCommand_accepted hidle he
  | cmdPair => exact acceptCommand_accepted hidle he
  | disc => exact accepted_of_idle hidle he .disc
  | seta hi lo => exact accepted_of_idle hidle he (.seta hi lo)
  | wreg id value => exact accepted_of_idle hidle he (.wreg id value)
  | rreg id => exact accepted_of_idle hidle he (.rreg id)
  | stbIdle => exact acceptStrobe_accepted hidle he
  | stbTxen => exact acceptStrobe_accepted hidle he
  | stbFtx => exact acceptStrobe_accepted hidle he
  | stbReset => exact acceptStrobe_accepted hidle he
  | stbRxen => exact acceptStrobe_accepted hidle he
  | stbFrx => exact acceptStrobe_accepted hidle he
  | ww id value => exact absurd he (transact_idle_ne_next h)
  | wr id => exact absurd he (transact_idle_ne_next h)
  | ws code => exact absurd he (transact_idle_ne_next h)
  | wf hi lo opcode => exact absurd he (transact_idle_ne_next h)
  | wp sync hi lo x rest => simp [exec, execWp, h] at he

/-- The event is answered ok with the byte `y`, and `rest` are the answers after it; `DELAY` and `REPORT_OVERSIZE` take
none (R9, R251). -/
def AnsweredOk (e : Event) (y : Byte) (rest : List Answer) (s : State) : Prop :=
  (needsAnswer e = true ∧ s.answers = .ok y :: rest) ∨ (needsAnswer e = false ∧ y = 0 ∧ s.answers = rest)

/-- Every way a step answers a next state (R45, R290). -/
inductive StepResult (s : State) : State → Prop
  | reset (hr : s.resetPin = true) : StepResult s (hardwareReset s)
  | noWord (hr : s.resetPin = false) (hi : s.ph = .idle) (ho : s.offers = []) : StepResult s s
  | illegal {w : HostWord} {rest : List HostWord} {err : DecodeError} (hr : s.resetPin = false) (hi : s.ph = .idle)
      (ho : s.offers = w :: rest) (hw : decodeWord w = .error err) :
      StepResult s (refuseIllegal { s with offers := rest })
  | accept {w : HostWord} {rest : List HostWord} {i : Instr} {t : State} (hr : s.resetPin = false) (hi : s.ph = .idle)
      (ho : s.offers = w :: rest) (hw : decodeWord w = .ok i) (ha : Accepted { s with offers := rest } i t) :
      StepResult s t
  | unanswered {e : Event} (hr : s.resetPin = false) (hb : isBusy s = true) (he : nextEvent s = some e)
      (hn : needsAnswer e = true) (ha : s.answers = []) : StepResult s s
  | failed {e : Event} {rest : List Answer} (hr : s.resetPin = false) (hb : isBusy s = true)
      (he : nextEvent s = some e) (hn : needsAnswer e = true) (ha : s.answers = .fail :: rest) :
      StepResult s (eventFailed e (withAnswers rest s))
  | emitted {e : Event} {y : Byte} {rest : List Answer} (hr : s.resetPin = false) (hb : isBusy s = true)
      (he : nextEvent s = some e) (ha : AnsweredOk e y rest s) :
      StepResult s (moveOn (phaseScript s) completePhase (eventOk e y (withAnswers rest s)))

theorem step_idle_next {s t : State} (hr : s.resetPin = false) (hi : s.ph = .idle) (h : step s = .next t) :
    StepResult s t := by
  cases ho : s.offers with
  | nil =>
    rw [step_waiting hr hi ho] at h
    cases h
    exact .noWord hr hi ho
  | cons w rest =>
    rw [step_word hr hi ho] at h
    cases hw : decodeWord w with
    | error err =>
      simp only [hw, Host.Outcome.next.injEq] at h
      exact h ▸ .illegal hr hi ho hw
    | ok i =>
      simp only [hw] at h
      exact .accept hr hi ho hw (exec_idle_next hi h)

theorem step_busy_next {s t : State} (hr : s.resetPin = false) (hb : isBusy s = true) (h : step s = .next t) :
    StepResult s t := by
  rw [step_busy hr hb] at h
  obtain ⟨e, he, h⟩ := emitAt_next h
  obtain ⟨hn, ha, rfl⟩ | ⟨rest, hn, ha, rfl⟩ | ⟨y, rest, hn, ha, rfl⟩ | ⟨hn, rfl⟩ := emitEvent_next h
  · exact .unanswered hr hb he hn ha
  · exact .failed hr hb he hn ha
  · exact .emitted hr hb he (.inl ⟨hn, ha⟩)
  · exact .emitted hr hb he (.inr ⟨hn, rfl, rfl⟩)

/-- What one step can do. -/
theorem step_next {s t : State} (h : step s = .next t) : StepResult s t := by
  cases hr : s.resetPin with
  | true =>
    rw [step_reset hr] at h
    cases h
    exact .reset hr
  | false =>
    by_cases hidle : s.ph = .idle
    · exact step_idle_next hr hidle h
    · by_cases hhalt : s.ph = .halt
      · rw [step_halted hr hhalt] at h
        cases h
      · exact step_busy_next hr (isBusy_iff.2 ⟨hidle, hhalt⟩) h

end Sys2Proof.Machine
end
section
/-! The transactions and the bracket of their events: where `SEL` and `DESEL` stand in a script, so what an event does
to `CS` by its index alone (R36, R47). -/

namespace Sys2Proof.Machine

/-- The scripts of the transactions, by format (R131, R134, R151, R185). -/
inductive Transaction : Format → List Event → Prop
  | write (a v : Byte) : Transaction .registerWrite (writeScript a v)
  | read (header : Byte) : Transaction .registerRead (readScript header)
  | strobe (code : Byte) : Transaction .strobe (strobeScript code)
  | burst (hi lo opc : Byte) : Transaction .frame (burstScript (frame hi lo opc))

/-- A phase of a format performs a transaction of that format, wherever it has an event at all (R28). -/
theorem phaseScript_transaction {s : State} {f : Format} (hf : phaseFormat s.ph = some f)
    (hne : phaseScript s ≠ []) : Transaction f (phaseScript s) := by
  revert hne
  unfold phaseScript
  cases hph : s.ph <;> simp only [hph, phaseFormat, Option.some.injEq, reduceCtorEq] at hf <;> subst hf <;> intro hne
  case iTable =>
    cases he : Config.table[s.ti]? with
    | none => simp [he] at hne
    | some entry => exact .write _ _
  case pStb =>
    cases hk : strobeOfSelector s.pa with
    | none => simp [hk] at hne
    | some k => exact .strobe _
  all_goals constructor

/-- A busy phase without a transaction is one event that leaves `CS` alone (R28, R36). -/
theorem phaseScript_single {s : State} (hb : isBusy s = true) (hf : phaseFormat s.ph = none) :
    ∃ e, phaseScript s = [e] ∧ (∀ cs, csAfter e cs = cs) ∧ phaseLength s.ph = 1 := by
  obtain ⟨hidle, hhalt⟩ := isBusy_iff.1 hb
  cases hph : s.ph <;> simp_all [phaseFormat, phaseScript, phaseLength, csAfter]

theorem Transaction.length_eq {f : Format} {script : List Event} (h : Transaction f script) {p : Phase}
    (hf : phaseFormat p = some f) : script.length = phaseLength p := by
  cases h <;> simp [phaseLength, hf, writeScript, readScript, strobeScript, burstScript, frame]

/-- `DESEL` comes after `SEL` and inside the script. -/
theorem Transaction.deselIndex_bounds {f : Format} {script : List Event} (h : Transaction f script) :
    1 ≤ deselIndex f ∧ deselIndex f < script.length := by
  cases h <;> simp [deselIndex, writeScript, readScript, strobeScript, burstScript, frame]

/-- The first event of a transaction selects, the one at `deselIndex` deselects, every other one leaves `CS` alone. -/
theorem Transaction.csAfter_getElem? {f : Format} {script : List Event} (h : Transaction f script) {k : Nat}
    {e : Event} (he : script[k]? = some e) (cs : Bool) :
    csAfter e cs = if k = 0 then true else if k = deselIndex f then false else cs := by
  obtain ⟨hk, rfl⟩ := List.getElem?_eq_some_iff.1 he
  cases h with
  | write a v =>
    simp only [writeScript, List.length_cons, List.length_nil] at hk
    interval_cases k <;> rfl
  | read header =>
    simp only [readScript, List.length_cons, List.length_nil] at hk
    interval_cases k <;> rfl
  | strobe code =>
    simp only [strobeScript, List.length_cons, List.length_nil] at hk
    interval_cases k <;> rfl
  | burst hi lo opc =>
    simp only [burstScript, frame, List.map, List.cons_append, List.nil_append, List.length_cons,
      List.length_nil] at hk
    interval_cases k <;> rfl

/-- The number of micro-steps of a phase is the length of its script (R29). -/
theorem phaseScript_length {s : State} {e : Event} (hb : isBusy s = true) (he : nextEvent s = some e) :
    (phaseScript s).length = phaseLength s.ph := by
  cases hf : phaseFormat s.ph with
  | none =>
    obtain ⟨e', hs, -, hl⟩ := phaseScript_single hb hf
    simp [hs, hl]
  | some f =>
    refine (phaseScript_transaction hf fun hnil => ?_).length_eq hf
    simp [nextEvent, hnil] at he

/-- Every busy phase has a micro-step. -/
theorem phaseLength_pos {s : State} (hb : isBusy s = true) : 0 < phaseLength s.ph := by
  obtain ⟨hidle, hhalt⟩ := isBusy_iff.1 hb
  cases hph : s.ph <;> simp_all [phaseLength, phaseFormat]

/-- No transaction is so long that `U` overflows (R29). -/
theorem toNat_succ_of_phaseLength {p : Phase} {u : BitVec 4} (h : u.toNat + 1 < phaseLength p) :
    (u + 1).toNat = u.toNat + 1 := by
  have hp : phaseLength p ≤ 12 := by cases p <;> simp [phaseLength, phaseFormat]
  have hlt : u.toNat + 1 < 16 := by omega
  exact BitVec.toNat_add_of_lt hlt

/-- An event's effect on `CS` only grows with `CS`. -/
theorem csAfter_mono {e : Event} {b c : Bool} (hbc : b = true → c = true) (h : csAfter e b = true) :
    csAfter e c = true := by
  cases e with
  | sel => rfl
  | desel => cases h
  | rdy | tx | rx | delay | reportOversize => exact hbc h

/-- Inside a phase's script an event moves `CS` as the position moves through the bracket (R36, R47 (b)). -/
theorem csAfter_insideBracket {s t : State} {e : Event} (hb : isBusy s = true) (he : nextEvent s = some e)
    (hin : s.u.toNat + 1 < (phaseScript s).length) (hph : t.ph = s.ph) (hu : t.u.toNat = s.u.toNat + 1) :
    csAfter e (insideBracket s) = insideBracket t := by
  cases hf : phaseFormat s.ph with
  | none =>
    obtain ⟨e', hs, -, -⟩ := phaseScript_single hb hf
    simp [hs] at hin
  | some f =>
    have htr := phaseScript_transaction hf (List.ne_nil_of_length_pos (by omega))
    have hdesel := htr.deselIndex_bounds
    rw [htr.csAfter_getElem? he]
    simp only [insideBracket, hph, hf, hu]
    split
    · exact (decide_eq_true (by omega)).symm
    · split
      · exact (decide_eq_false (by omega)).symm
      · exact decide_eq_decide.2 (by omega)

/-- The last event of a phase's script leaves the bracket closed. -/
theorem csAfter_insideBracket_last {s : State} {e : Event} (hb : isBusy s = true) (he : nextEvent s = some e)
    (hlast : (phaseScript s).length ≤ s.u.toNat + 1) : csAfter e (insideBracket s) = false := by
  cases hf : phaseFormat s.ph with
  | none =>
    obtain ⟨e', hs, hcs, -⟩ := phaseScript_single hb hf
    have he' : e = e' := by simpa [nextEvent, hs] using List.mem_of_getElem? he
    simp [he', hcs, insideBracket, hf]
  | some f =>
    have htr := phaseScript_transaction hf fun hnil => by simp [nextEvent, hnil] at he
    have hdesel := htr.deselIndex_bounds
    rw [htr.csAfter_getElem? he, if_neg (by omega)]
    simp only [insideBracket, hf]
    split
    · rfl
    · exact decide_eq_false (by omega)

end Sys2Proof.Machine
end
section
/-! The invariants of R47 and of the position, kept by every step and so by every run. -/

namespace Sys2Proof.Machine

/-- What holds between two phases of a block that is not halted: the select is released, no exception has been taken,
and a validated DISC has left an Address. -/
structure Settled (s : State) : Prop where
  released : s.cs = false
  no_cause : s.cause = .none
  validated_has_address : s.ds = .validated → s.addrValid = true

theorem Settled.congr {s t : State} (h : Settled s) (hcs : t.cs = s.cs := by rfl) (hcause : t.cause = s.cause := by rfl)
    (hds : t.ds = s.ds := by rfl) (hv : t.addrValid = s.addrValid := by rfl) : Settled t where
  released := hcs.trans h.released
  no_cause := hcause.trans h.no_cause
  validated_has_address hd := hv.trans (h.validated_has_address (hds.symm.trans hd))

/-- What R47 (c) to (f) ask of the data registers in a phase. -/
def PhaseData (p : Phase) (s : State) : Prop :=
  (p = .iTable → s.ti < Config.table.length) ∧
  (phaseOperation p = .cmd → s.rep.toNat ≤ 49 ∧ s.addrValid = true) ∧
  (p = .dFifo → 1 ≤ s.len.toNat ∧ s.len.toNat ≤ 8 ∧ s.bi.toNat < s.len.toNat) ∧
  (p = .dReport → 8 < s.len.toNat)

theorem SpecInvariant.phaseData {s : State} (h : SpecInvariant s) : PhaseData s.ph s :=
  ⟨h.table_index, h.transmit_cycle, h.fifo_index, h.report_length⟩

theorem SpecInvariant.no_cause {s : State} (h : SpecInvariant s) (hh : s.ph ≠ .halt) : s.cause = .none :=
  not_not.1 fun hc => hh (h.cause_iff_halted.1 hc)

theorem SpecInvariant.settled_of_idle {s : State} (h : SpecInvariant s) (hi : s.ph = .idle) : Settled s where
  released := (h.idle_is_quiet hi).1
  no_cause := h.no_cause (by simp [hi])
  validated_has_address := h.validated_has_address

/-- R47 holds at the first position of a phase, and in an idle block. -/
theorem SpecInvariant.of_settled {s : State} (hs : Settled s) (hd : PhaseData s.ph s) (hu : s.u = 0)
    (hh : s.ph ≠ .halt) (ho : s.ph = .idle → s.op = .none) : SpecInvariant s := by
  obtain ⟨hti, hcmd, hfifo, hrep⟩ := hd
  refine ⟨fun hi => ⟨hs.released, ho hi, hu⟩, fun hcs => ?_, hti, hcmd, hfifo, hrep, ?_, hs.validated_has_address⟩
  · simp [hs.released] at hcs
  · simp [hs.no_cause, hh]

/-- A halt keeps R47 whatever phase it leaves. -/
theorem SpecInvariant.haltWith {s : State} {c : Cause} (fph : BitVec 5) (fu : BitVec 4) (hc : c ≠ .none)
    (hv : s.ds = .validated → s.addrValid = true) : SpecInvariant (haltWith c fph fu s) := by
  constructor <;> simp [phaseOperation, hc]
  exact hv

theorem SpecInvariant.hardwareReset (s : State) : SpecInvariant (hardwareReset s) := by
  refine .of_settled ⟨rfl, rfl, ?_⟩ ?_ rfl ?_ fun _ => rfl <;> simp [PhaseData, phaseOperation, State.reset]

theorem SpecInvariant.enterPhase {p : Phase} {s : State} (hs : Settled s)
    (hp : p ≠ .idle ∧ p ≠ .halt := by decide) (hd : PhaseData p s := by simp [PhaseData, phaseOperation]) :
    SpecInvariant (enterPhase p s) :=
  .of_settled hs.congr hd rfl hp.2 fun h => absurd h hp.1

theorem SpecInvariant.beginOperation {o : Operation} {p : Phase} {s : State} (hs : Settled s)
    (hp : p ≠ .idle ∧ p ≠ .halt := by decide) (hd : PhaseData p s := by simp [PhaseData, phaseOperation]) :
    SpecInvariant (beginOperation o p s) :=
  .of_settled hs.congr hd rfl hp.2 fun h => absurd h hp.1

theorem SpecInvariant.complete {s : State} (st : Status) (d1 d0 : Byte) (hs : Settled s) :
    SpecInvariant (complete st d1 d0 s) :=
  .of_settled hs.congr (by simp [PhaseData, phaseOperation]) rfl (by simp) fun _ => rfl

/-- The position's ranges hold at the first micro-step of a phase, and in an idle block. -/
theorem PositionInvariant.of_released {s : State} (hcs : s.cs = false) (hu : s.u = 0)
    (hop : isBusy s = true → s.op = phaseOperation s.ph) (hti : s.ph = .iTable → s.ti < Config.table.length)
    (hsel : s.ph = .pStb → (strobeOfSelector s.pa).isSome = true) (hbuf : Memory.wf s.buf = true) :
    PositionInvariant s where
  operation_of_phase := hop
  micro_step hb := by
    rw [hu]
    exact phaseLength_pos hb
  table_index := hti
  strobe_selector := hsel
  select_exact _ := by
    rw [hcs, insideBracket, hu]
    split <;> rfl
  buffer_form := hbuf

theorem PositionInvariant.released_of_idle {s : State} (h : PositionInvariant s) (hi : s.ph = .idle) :
    s.cs = false := by
  rw [h.select_exact (by simp [hi])]
  simp [insideBracket, phaseFormat, hi]

theorem PositionInvariant.hardwareReset (s : State) : PositionInvariant (hardwareReset s) := by
  refine .of_released rfl rfl ?_ ?_ ?_ Memory.wf_reset <;> simp [State.reset, isBusy, isIdle]

theorem PositionInvariant.haltWith {s : State} (c : Cause) (fph : BitVec 5) (fu : BitVec 4)
    (hbuf : Memory.wf s.buf = true) : PositionInvariant (haltWith c fph fu s) := by
  constructor <;> simp [isBusy, isIdle, isHalted]
  exact hbuf

theorem PositionInvariant.enterPhase {p : Phase} {s : State} (hcs : s.cs = false) (hop : s.op = phaseOperation p)
    (hbuf : Memory.wf s.buf = true) (hti : p = .iTable → s.ti < Config.table.length := by simp)
    (hp : p ≠ .pStb := by decide) : PositionInvariant (enterPhase p s) :=
  .of_released hcs rfl (fun _ => hop) hti (fun h => absurd h hp) hbuf

theorem PositionInvariant.beginOperation {o : Operation} {p : Phase} {s : State} (hcs : s.cs = false)
    (hbuf : Memory.wf s.buf = true) (hsel : p = .pStb → (strobeOfSelector s.pa).isSome = true := by simp)
    (hop : o = phaseOperation p := by rfl) (hp : p ≠ .iTable := by decide) :
    PositionInvariant (beginOperation o p s) :=
  .of_released hcs rfl (fun _ => hop) (fun h => absurd h hp) hsel hbuf

theorem PositionInvariant.complete {s : State} (st : Status) (d1 d0 : Byte) (hcs : s.cs = false)
    (hbuf : Memory.wf s.buf = true) : PositionInvariant (complete st d1 d0 s) := by
  refine .of_released hcs rfl ?_ ?_ ?_ hbuf <;> simp [isBusy, isIdle]

end Sys2Proof.Machine
end

section
/-! The phase-completion actions keep the invariants (R133, R136, R153, R167, R187, R220). -/

namespace Sys2Proof.Machine

/-- The next of the 50 cycles, or the end: `REP` stays at most 49 (R31). -/
theorem SpecInvariant.finishCWait {s : State} (hs : Settled s) (hv : s.addrValid = true) :
    SpecInvariant (finishCWait s) := by
  unfold Machine.finishCWait
  split
  · next hrep =>
    have hrep : s.rep.toNat + 1 < 50 := hrep
    have hsucc : (s.rep + 1).toNat = s.rep.toNat + 1 :=
      BitVec.toNat_add_of_lt (show s.rep.toNat + 1 < 64 by omega)
    refine .enterPhase hs.congr (hd := ⟨nofun, fun _ => ?_, nofun, nofun⟩)
    exact ⟨show (s.rep + 1).toNat ≤ 49 by omega, hv⟩
  · exact .complete _ _ _ hs

/-- The branch of the length byte: no data, an oversize report, or `LEN` between 1 and 8 and `BI` at 0 (R206). -/
theorem SpecInvariant.finishDLen {s : State} (hs : Settled s) : SpecInvariant (finishDLen s) := by
  unfold Machine.finishDLen
  split
  · exact .enterPhase hs.congr
  · next hzero =>
    split
    · next hover =>
      have hover : 8 < s.rdata.toNat := hover
      exact .enterPhase hs.congr (hd := by simpa [PhaseData, phaseOperation])
    · next hover =>
      have hover : ¬ 8 < s.rdata.toNat := hover
      refine .enterPhase ⟨hs.released, hs.no_cause, nofun⟩ (hd := ⟨nofun, nofun, fun _ => ?_, nofun⟩)
      exact ⟨Nat.pos_of_ne_zero hzero, Nat.not_lt.1 hover, Nat.pos_of_ne_zero hzero⟩

/-- The next FIFO byte, or the flush: `BI` stays below `LEN` (R32). -/
theorem SpecInvariant.finishDFifo {s : State} (hs : Settled s) (hlen : s.len.toNat ≤ 8) :
    SpecInvariant (finishDFifo s) := by
  unfold Machine.finishDFifo
  split
  · next hbi =>
    have hsucc : (s.bi + 1).toNat = s.bi.toNat + 1 :=
      BitVec.toNat_add_of_lt (show s.bi.toNat + 1 < 8 by omega)
    refine .enterPhase hs.congr (hd := ⟨nofun, nofun, fun _ => ?_, nofun⟩)
    exact ⟨show 1 ≤ s.len.toNat by omega, hlen, show (s.bi + 1).toNat < s.len.toNat by omega⟩
  · exact .enterPhase hs.congr

theorem SpecInvariant.loopBack {s : State} (v : LastVerdict) (hs : Settled s) : SpecInvariant (loopBack v s) := by
  unfold Machine.loopBack
  split
  · exact .complete _ _ _ ⟨hs.released, hs.no_cause, nofun⟩
  · exact .enterPhase ⟨hs.released, hs.no_cause, nofun⟩

theorem SpecInvariant.finishDFrx {s : State} (hs : Settled s) : SpecInvariant (finishDFrx s) := by
  unfold Machine.finishDFrx
  split
  · exact .complete _ _ _ ⟨hs.released, hs.no_cause, fun _ => rfl⟩
  all_goals exact .loopBack _ hs

/-- Every phase-completion action leads to a state of R47. -/
theorem SpecInvariant.completePhase {s : State} (hb : isBusy s = true) (hs : Settled s) (hd : PhaseData s.ph s) :
    SpecInvariant (completePhase s) := by
  obtain ⟨hti, hcmd, hfifo, hrep⟩ := hd
  cases hph : s.ph <;> simp only [Machine.completePhase, hph]
  case idle | halt => simp [isBusy, isIdle, isHalted, hph] at hb
  case iReset =>
    unfold finishIReset
    split
    · exact .enterPhase hs.congr (hd := by simpa [PhaseData, phaseOperation])
    · exact .enterPhase hs
  case iTable =>
    unfold finishITable
    split
    · exact .enterPhase hs.congr (hd := by simpa [PhaseData, phaseOperation])
    · exact .enterPhase hs
  case iPower => exact .complete _ _ _ hs.congr
  case cIdle | cFtx | cBurst | cTxen =>
    exact .enterPhase hs (hd := by simpa [PhaseData, phaseOperation, hph] using hcmd)
  case cWait => exact .finishCWait hs (hcmd (by simp [phaseOperation, hph])).2
  case dRxen => exact .enterPhase ⟨hs.released, hs.no_cause, nofun⟩
  case dCfg | dWait | dIdle => exact .enterPhase hs
  case dLen => exact .finishDLen hs
  case dFifo => exact .finishDFifo hs (hfifo hph).2.1
  case dReport => exact .enterPhase hs.congr
  case dFrx => exact .finishDFrx hs
  case pWr | pRd | pStb => exact .complete _ _ _ hs

theorem PositionInvariant.loopBack {s : State} (v : LastVerdict) (hcs : s.cs = false) (hop : s.op = .disc)
    (hbuf : Memory.wf s.buf = true) : PositionInvariant (loopBack v s) := by
  unfold Machine.loopBack
  split
  · exact .complete _ _ _ hcs hbuf
  · exact .enterPhase hcs hop hbuf

/-- Every phase-completion action leads to a state within the position's ranges. -/
theorem PositionInvariant.completePhase {s : State} (hb : isBusy s = true) (hcs : s.cs = false)
    (hop : s.op = phaseOperation s.ph) (hbuf : Memory.wf s.buf = true) : PositionInvariant (completePhase s) := by
  cases hph : s.ph <;> rw [hph] at hop <;> simp only [Machine.completePhase, hph]
  case idle | halt => simp [isBusy, isIdle, isHalted, hph] at hb
  case iReset =>
    unfold finishIReset
    split
    · next hti => exact .enterPhase hcs hop hbuf fun _ => hti
    · exact .enterPhase hcs hop hbuf
  case iTable =>
    unfold finishITable
    split
    · next hti => exact .enterPhase hcs hop hbuf fun _ => hti
    · exact .enterPhase hcs hop hbuf
  case iPower | pWr | pRd | pStb => exact .complete _ _ _ hcs hbuf
  case cWait =>
    unfold finishCWait
    split
    · exact .enterPhase hcs hop hbuf
    · exact .complete _ _ _ hcs hbuf
  case dLen =>
    unfold finishDLen
    split
    · exact .enterPhase hcs hop hbuf
    · split <;> exact .enterPhase hcs hop hbuf
  case dFifo =>
    unfold finishDFifo
    split <;> exact .enterPhase hcs hop (Memory.wf_write _ s.bi.isLt hbuf)
  case dFrx =>
    unfold finishDFrx
    split
    · exact .complete _ _ _ hcs hbuf
    all_goals exact .loopBack _ hcs hop hbuf
  all_goals exact .enterPhase hcs hop hbuf

end Sys2Proof.Machine
end

section
/-! Every step and every run keeps the invariants, and the statements of this family. -/

namespace Sys2Proof.Machine

/-- Accepting a host operation keeps R47. -/
theorem SpecInvariant.accepted {s t : State} {i : Instr} (h : SpecInvariant s) (ha : Accepted s i t)
    (hi : s.ph = .idle) : SpecInvariant t := by
  have hs := h.settled_of_idle hi
  cases ha with
  | command c haddr => exact .beginOperation hs.congr (hd := ⟨nofun, fun _ => ⟨Nat.zero_le _, haddr⟩, nofun, nofun⟩)
  | violation c => exact .haltWith _ _ nofun h.validated_has_address
  | disc => exact .beginOperation ⟨hs.released, hs.no_cause, nofun⟩
  | seta hi lo => exact .complete _ _ _ ⟨hs.released, hs.no_cause, fun _ => rfl⟩
  | init | wreg | rreg | strobe => exact .beginOperation hs.congr

theorem strobeOfSelector_strobeSelector (k : Strobe) : strobeOfSelector (strobeSelector k) = some k := by
  cases k <;> rfl

/-- Accepting a host operation keeps the position's ranges. -/
theorem PositionInvariant.accepted {s t : State} {i : Instr} (h : PositionInvariant s) (ha : Accepted s i t)
    (hi : s.ph = .idle) : PositionInvariant t := by
  have hcs := h.released_of_idle hi
  have hbuf := h.buffer_form
  cases ha with
  | violation c => exact .haltWith _ _ _ hbuf
  | seta hi lo => exact .complete _ _ _ hcs hbuf
  | strobe k => exact .beginOperation hcs hbuf fun _ => by simp [strobeOfSelector_strobeSelector]
  | init | command | disc | wreg | rreg => exact .beginOperation hcs hbuf

/-- An answered event keeps R47: the next micro-step of the phase, or the phase completed. -/
theorem SpecInvariant.emitted {s : State} {e : Event} {y : Byte} {rest : List Answer} (h : SpecInvariant s)
    (hb : isBusy s = true) (he : nextEvent s = some e) :
    SpecInvariant (moveOn (phaseScript s) Machine.completePhase (eventOk e y (withAnswers rest s))) := by
  obtain ⟨hidle, hhalt⟩ := isBusy_iff.1 hb
  have hbracket (hcs : s.cs = true) : insideBracket s = true := by
    simpa [hhalt, hb] using h.select_in_bracket hcs
  by_cases hin : s.u.toNat + 1 < (phaseScript s).length
  · have hsucc : (s.u + 1).toNat = s.u.toNat + 1 := toNat_succ_of_phaseLength (phaseScript_length hb he ▸ hin)
    rw [moveOn_inside (by simpa [eventOk] using hin)]
    refine ⟨fun hi => absurd hi hidle, fun hcs => .inl ⟨hb, ?_⟩, h.table_index, h.transmit_cycle, h.fifo_index,
      h.report_length, h.cause_iff_halted, h.validated_has_address⟩
    exact Eq.trans (Eq.symm (csAfter_insideBracket hb he hin rfl hsucc)) (csAfter_mono hbracket hcs)
  · have hlast := csAfter_insideBracket_last hb he (Nat.not_lt.1 hin)
    rw [moveOn_last (by simpa [eventOk] using hin)]
    refine .completePhase hb ⟨?_, h.no_cause hhalt, h.validated_has_address⟩ h.phaseData
    exact Bool.eq_false_iff.2 fun hcs => by simp [csAfter_mono hbracket hcs] at hlast

/-- An answered event keeps the position's ranges. -/
theorem PositionInvariant.emitted {s : State} {e : Event} {y : Byte} {rest : List Answer} (h : PositionInvariant s)
    (hb : isBusy s = true) (he : nextEvent s = some e) :
    PositionInvariant (moveOn (phaseScript s) Machine.completePhase (eventOk e y (withAnswers rest s))) := by
  have hcs : csAfter e s.cs = csAfter e (insideBracket s) := by rw [h.select_exact (isBusy_iff.1 hb).2]
  by_cases hin : s.u.toNat + 1 < (phaseScript s).length
  · have hlen : s.u.toNat + 1 < phaseLength s.ph := phaseScript_length hb he ▸ hin
    have hsucc : (s.u + 1).toNat = s.u.toNat + 1 := toNat_succ_of_phaseLength hlen
    rw [moveOn_inside (by simpa [eventOk] using hin)]
    exact ⟨h.operation_of_phase, fun _ => hsucc.trans_lt hlen, h.table_index, h.strobe_selector,
      fun _ => hcs.trans (csAfter_insideBracket hb he hin rfl hsucc), h.buffer_form⟩
  · rw [moveOn_last (by simpa [eventOk] using hin)]
    exact .completePhase hb (hcs.trans (csAfter_insideBracket_last hb he (Nat.not_lt.1 hin)))
      (h.operation_of_phase hb) h.buffer_form

/-! ### Steps and runs

Neither the command port nor the response stands in an invariant. -/

theorem SpecInvariant.withOffers {s : State} (h : SpecInvariant s) (rest : List HostWord) :
    SpecInvariant { s with offers := rest } :=
  ⟨h.idle_is_quiet, h.select_in_bracket, h.table_index, h.transmit_cycle, h.fifo_index, h.report_length,
    h.cause_iff_halted, h.validated_has_address⟩

theorem SpecInvariant.refuseIllegal {s : State} (h : SpecInvariant s) : SpecInvariant (refuseIllegal s) :=
  ⟨h.idle_is_quiet, h.select_in_bracket, h.table_index, h.transmit_cycle, h.fifo_index, h.report_length,
    h.cause_iff_halted, h.validated_has_address⟩

theorem PositionInvariant.withOffers {s : State} (h : PositionInvariant s) (rest : List HostWord) :
    PositionInvariant { s with offers := rest } :=
  ⟨h.operation_of_phase, h.micro_step, h.table_index, h.strobe_selector, h.select_exact, h.buffer_form⟩

theorem PositionInvariant.refuseIllegal {s : State} (h : PositionInvariant s) : PositionInvariant (refuseIllegal s) :=
  ⟨h.operation_of_phase, h.micro_step, h.table_index, h.strobe_selector, h.select_exact, h.buffer_form⟩

/-- Every step keeps the invariants of R47. -/
theorem SpecInvariant.step {s t : State} (h : SpecInvariant s) (hs : step s = .next t) : SpecInvariant t := by
  cases step_next hs with
  | reset => exact .hardwareReset s
  | noWord | unanswered => exact h
  | illegal => exact (h.withOffers _).refuseIllegal
  | accept hr hi ho hw ha => exact (h.withOffers _).accepted ha hi
  | failed => exact .haltWith _ _ nofun h.validated_has_address
  | emitted hr hb he => exact h.emitted hb he

/-- Every step keeps the position's ranges, the exact `CS` and the canonical form of `BUF`. -/
theorem PositionInvariant.step {s t : State} (h : PositionInvariant s) (hs : step s = .next t) :
    PositionInvariant t := by
  cases step_next hs with
  | reset => exact .hardwareReset s
  | noWord | unanswered => exact h
  | illegal => exact (h.withOffers _).refuseIllegal
  | accept hr hi ho hw ha => exact (h.withOffers _).accepted ha hi
  | failed => exact .haltWith _ _ _ h.buffer_form
  | emitted hr hb he => exact h.emitted hb he

/-- What every step keeps, every run keeps. -/
theorem run_keeps {P : State → Prop} (hstep : ∀ s t, P s → step s = .next t → P t) {n : Nat} {s t : State}
    (h : P s) (hrun : core.run n s = .next t) : P t := by
  induction n generalizing s with
  | zero =>
    cases hrun
    exact h
  | succ k ih =>
    cases hs : step s with
    | next s' =>
      have hrun' : core.run k s' = .next t := by simpa [Host.Core.run, core, hs] using hrun
      exact ih (hstep s s' h hs) hrun'
    | fault r => simp [Host.Core.run, core, hs] at hrun
    | refused r => simp [Host.Core.run, core, hs] at hrun

/-- Settles O32: the reset state is a closed value, read field by field. -/
theorem resetStateHoldsStatedValues : Obligations.ResetStateHoldsStatedValues :=
  ⟨rfl, rfl, rfl, rfl, rfl, rfl, rfl, rfl, rfl, rfl, rfl, rfl, rfl, rfl, rfl, rfl, rfl, rfl, rfl, rfl⟩

/-- Settles O53: each step keeps both invariants, so a run does by induction on its steps; the state after reset, with
any words and answers, is what a hardware reset leaves. -/
theorem runsKeepInvariants : Obligations.RunsKeepInvariants := by
  refine ⟨fun s t n hspec hpos hrun => ?_, fun offers answers t n hrun => ?_⟩
  · exact run_keeps (P := fun s => SpecInvariant s ∧ PositionInvariant s)
      (fun _ _ ⟨hspec, hpos⟩ hs => ⟨hspec.step hs, hpos.step hs⟩) ⟨hspec, hpos⟩ hrun
  · have hreset : SpecInvariant { State.reset with offers := offers, answers := answers } :=
      .hardwareReset { State.reset with offers := offers, answers := answers }
    exact run_keeps (fun _ _ h hs => h.step hs) hreset hrun

end Sys2Proof.Machine
end

section
/-! The read header of a register id (R139), and the statement of this family. -/

namespace Sys2Proof.Machine

/-- The header keeps every bit of the id but bit 7, which it sets. -/
theorem readHeader_getElem (a : Byte) {i : Nat} (hi : i < 8) :
    (readHeader a)[i] = (a[i] || decide (i = 7)) := by
  have hmask : (0x80 : Byte) = BitVec.twoPow 8 7 := rfl
  simp [readHeader, hmask]

/-- An id of `0x80` or above has bit 7 set already, so the header adds no bit to it. -/
theorem readHeader_eq_self {a : Byte} (h : 0x80 ≤ a.toNat) : readHeader a = a := by
  have hmsb : a.msb = true := BitVec.msb_eq_true_iff_two_mul_ge.2 (by omega)
  ext i hi
  rw [readHeader_getElem a hi]
  by_cases h7 : i = 7
  · subst h7
    simpa [BitVec.msb_eq_getLsbD_last] using hmsb
  · simp [h7]

/-- An id below `0x80` shares no bit with the mask, so the OR adds the mask and does not overflow. -/
theorem readHeader_toNat_of_lt {a : Byte} (h : a.toNat < 0x80) : (readHeader a).toNat = a.toNat + 0x80 :=
  calc (readHeader a).toNat = 2 ^ 7 * 1 ||| a.toNat := by simp [readHeader, Nat.or_comm]
    _ = 2 ^ 7 * 1 + a.toNat := (Nat.two_pow_add_eq_or_of_lt h 1).symm
    _ = a.toNat + 0x80 := by omega

/-- Settles O34: the header is the OR by definition, and the two ranges of the id are bit 7 set and bit 7 clear. -/
theorem readHeaderSetsBitSeven : Obligations.ReadHeaderSetsBitSeven :=
  fun _ => ⟨rfl, readHeader_eq_self, readHeader_toNat_of_lt⟩

end Sys2Proof.Machine
end

section
/-! Runs of a phase: a busy block whose events are answered ok emits its phase's script, one event a step, and then
completes the phase (R45). `Replays` says this of a script and the two states around it, so that the runs of the phases
of an operation compose. -/

namespace Sys2Proof.Machine

theorem run_succ_of_step {k : Nat} {s t : State} (h : step s = .next t) : core.run (k + 1) s = core.run k t := by
  simp [Host.Core.run, core, h]

theorem run_add_of_run {m n : Nat} {s t : State} (h : core.run m s = .next t) :
    core.run (m + n) s = core.run n t := by
  induction m generalizing s with
  | zero =>
    cases h
    rw [Nat.zero_add]
  | succ k ih =>
    rw [Nat.add_right_comm]
    cases hs : step s with
    | next s' =>
      rw [run_succ_of_step hs] at h ⊢
      exact ih h
    | fault r => simp [Host.Core.run, core, hs] at h
    | refused r => simp [Host.Core.run, core, hs] at h

/-- A busy block's step with its event answered ok. -/
theorem step_answeredOk {s : State} {e : Event} {y : Byte} {rest : List Answer} (hr : s.resetPin = false)
    (hb : isBusy s = true) (he : nextEvent s = some e) (ha : AnsweredOk e y rest s) :
    step s = .next (moveOn (phaseScript s) completePhase (eventOk e y (withAnswers rest s))) := by
  rw [step_busy hr hb, emitAt_of_event he]
  obtain ⟨hn, ha⟩ | ⟨hn, rfl, rfl⟩ := ha
  · exact emitEvent_ok hn ha
  · exact emitEvent_free hn

/-- All but the position after the events of a script, answered ok with the bytes `ys`, and `rest` the answers left. -/
def answeredThrough (script : List Event) (ys : List Byte) (rest : List Answer) (s : State) : State :=
  { s with
    answers := rest, trace := s.trace ++ okTrace script ys
    cs := script.foldl (fun c e => csAfter e c) s.cs
    rdata := (rxBytes script ys).getLastD s.rdata }

theorem rxBytes_cons_getLastD {e : Event} {more : List Event} {y : Byte} {zs : List Byte} (r : Byte)
    (hn : needsAnswer e = true) :
    (rxBytes (e :: more) (y :: zs)).getLastD r = (rxBytes more zs).getLastD (rdataAfter e y r) := by
  by_cases hrx : e = .rx
  · subst hrx
    simp only [rxBytes, hn, if_true, List.getLastD_cons, rdataAfter]
  · have hkeep : rdataAfter e y r = r := by cases e <;> simp_all [rdataAfter]
    simp only [rxBytes, hn, if_true, if_neg hrx, hkeep]

theorem answeredThrough_cons_answered {e : Event} {more : List Event} {y : Byte} {zs : List Byte}
    {rest : List Answer} {s : State} (a : List Answer) (hn : needsAnswer e = true) :
    answeredThrough (e :: more) (y :: zs) rest s = answeredThrough more zs rest (eventOk e y (withAnswers a s)) := by
  simp only [answeredThrough, rxBytes_cons_getLastD _ hn]
  simp [okTrace, hn, eventOk, afterEvent, record, withAnswers]

theorem answeredThrough_cons_free {e : Event} {more : List Event} {ys : List Byte}
    {rest : List Answer} {s : State} (a : List Answer) (hn : needsAnswer e = false) :
    answeredThrough (e :: more) ys rest s = answeredThrough more ys rest (eventOk e 0 (withAnswers a s)) := by
  have hkeep (y r : Byte) : rdataAfter e y r = r := by cases e <;> simp_all [rdataAfter, needsAnswer]
  simp [answeredThrough, okTrace, rxBytes, hn, hkeep, eventOk, afterEvent, record, withAnswers]

/-- The first event of a script takes its answer, and the others take theirs after it. -/
theorem answeredThrough_cons {e : Event} {more : List Event} {ys : List Byte} {rest : List Answer} {s : State}
    (hlen : ys.length = transportEvents (e :: more)) (ha : s.answers = ys.map .ok ++ rest) :
    ∃ y zs, AnsweredOk e y (zs.map .ok ++ rest) s ∧ zs.length = transportEvents more ∧
      ∀ a, answeredThrough (e :: more) ys rest s =
        answeredThrough more zs rest (eventOk e y (withAnswers a s)) := by
  cases hn : needsAnswer e with
  | false =>
    exact ⟨0, ys, .inr ⟨hn, rfl, ha⟩, by simpa [transportEvents, hn] using hlen,
      fun a => answeredThrough_cons_free a hn⟩
  | true =>
    cases ys with
    | nil => simp [transportEvents, hn] at hlen
    | cons y zs =>
      exact ⟨y, zs, .inl ⟨hn, ha⟩, by simpa [transportEvents, hn] using hlen,
        fun a => answeredThrough_cons_answered a hn⟩

/-- A list read from an index on: the entry there, the entries after it, and how many they are. -/
theorem drop_eq_cons_parts {α : Type} {l rest : List α} {n : Nat} {a : α} (h : l.drop n = a :: rest) :
    l[n]? = some a ∧ l.drop (n + 1) = rest ∧ l.length = n + 1 + rest.length := by
  refine ⟨by rw [← List.head?_drop, h]; rfl, by rw [← List.tail_drop, h]; rfl, ?_⟩
  have hlen : l.length - n = rest.length + 1 := by rw [← List.length_drop, h, List.length_cons]
  omega

/-- The state after an event answered ok inside a phase, where `U` moves on (R45). -/
def nextMicroStep (e : Event) (y : Byte) (rest : List Answer) (s : State) : State :=
  { s with
    u := s.u + 1, answers := rest, cs := csAfter e s.cs, rdata := rdataAfter e y s.rdata
    trace := s.trace ++ [{ event := e, reply := okReply e y }] }

section
variable (e : Event) (y : Byte) (a : List Answer) (s : State)

theorem nextMicroStep_u : (nextMicroStep e y a s).u = s.u + 1 := rfl
theorem phaseScript_nextMicroStep : phaseScript (nextMicroStep e y a s) = phaseScript s := rfl

theorem moveOn_eventOk_inside {script : List Event} {done : State → State} (h : s.u.toNat + 1 < script.length) :
    moveOn script done (eventOk e y (withAnswers a s)) = nextMicroStep e y a s := by
  rw [moveOn_inside (by simpa [eventOk] using h)]
  simp [nextMicroStep, eventOk, afterEvent, record, withAnswers]

theorem answeredThrough_nextMicroStep (script : List Event) (ys : List Byte) (rest : List Answer) (u : BitVec 4) :
    { answeredThrough script ys rest (nextMicroStep e y a s) with u := u } =
      { answeredThrough script ys rest (eventOk e y (withAnswers a s)) with u := u } := rfl

end

/-- From any micro-step of a phase: the events still to come are emitted, and the phase completes. By recursion on
those events. -/
theorem run_phase_from {s : State} {e : Event} {more : List Event} {ys : List Byte} {rest : List Answer}
    (hr : s.resetPin = false) (hb : isBusy s = true) (hdrop : (phaseScript s).drop s.u.toNat = e :: more)
    (hlen : ys.length = transportEvents (e :: more)) (ha : s.answers = ys.map .ok ++ rest) :
    core.run (more.length + 1) s = .next (completePhase
      { answeredThrough (e :: more) ys rest s with u := BitVec.ofNat 4 ((phaseScript s).length - 1) }) := by
  obtain ⟨he, hrest, hsize⟩ := drop_eq_cons_parts hdrop
  obtain ⟨y, zs, hans, hzs, hthrough⟩ := answeredThrough_cons hlen ha
  rw [run_succ_of_step (step_answeredOk hr hb he hans), hthrough (zs.map .ok ++ rest)]
  cases more with
  | nil =>
    have hzs : zs = [] := List.eq_nil_of_length_eq_zero hzs
    have hlast : s.u = BitVec.ofNat 4 ((phaseScript s).length - 1) := by simp [hsize]
    rw [moveOn_last (by simp [hsize, eventOk]), ← hlast, hzs]
    simp [Host.Core.run, answeredThrough, okTrace, rxBytes, eventOk, afterEvent, record, withAnswers]
  | cons e' more =>
    have hinside : s.u.toNat + 1 < (phaseScript s).length := by rw [hsize, List.length_cons]; omega
    have hsucc : (s.u + 1).toNat = s.u.toNat + 1 := toNat_succ_of_phaseLength (phaseScript_length hb he ▸ hinside)
    have hih := run_phase_from (s := nextMicroStep e y (zs.map .ok ++ rest) s) (e := e') (more := more) (ys := zs) hr hb
      (by rwa [phaseScript_nextMicroStep, nextMicroStep_u, hsucc]) hzs rfl
    rw [phaseScript_nextMicroStep, answeredThrough_nextMicroStep] at hih
    rw [moveOn_eventOk_inside _ _ _ _ hinside]
    exact hih

/-- A busy block at micro-step 0 emits its phase's script, and the phase completes (R45). -/
theorem run_phase {s : State} {ys : List Byte} {rest : List Answer} (hr : s.resetPin = false) (hb : isBusy s = true)
    (hu : s.u = 0) (hne : phaseScript s ≠ []) (hlen : ys.length = transportEvents (phaseScript s))
    (ha : s.answers = ys.map .ok ++ rest) :
    core.run (phaseScript s).length s = .next (completePhase
      { answeredThrough (phaseScript s) ys rest s with u := BitVec.ofNat 4 ((phaseScript s).length - 1) }) := by
  obtain ⟨e, more, hscript⟩ := List.exists_cons_of_ne_nil hne
  have hrun := run_phase_from hr hb (by rw [hu]; exact hscript) (hscript ▸ hlen) ha
  rwa [← hscript, ← List.length_cons (a := e), ← hscript] at hrun

/-- The state with other answers to come and another trace before it: what the environment keeps of a run. -/
def withRun (answers : List Answer) (trace : List Emitted) (s : State) : State :=
  { s with answers := answers, trace := trace }

section
variable (a : List Answer) (tr : List Emitted) (s : State)

@[simp] theorem withRun_ph : (withRun a tr s).ph = s.ph := rfl
theorem phaseScript_withRun : phaseScript (withRun a tr s) = phaseScript s := rfl

theorem loopBack_withRun (v : LastVerdict) : loopBack v (withRun a tr s) = withRun a tr (loopBack v s) := by
  rw [loopBack, loopBack, apply_ite (withRun a tr)]
  rfl

theorem finishDLen_withRun : finishDLen (withRun a tr s) = withRun a tr (finishDLen s) := by
  rw [finishDLen, finishDLen, apply_ite (withRun a tr), apply_ite (withRun a tr)]
  rfl

theorem finishDFrx_withRun : finishDFrx (withRun a tr s) = withRun a tr (finishDFrx s) := by
  have hverdict : verdict (withRun a tr s).len (withRun a tr s).buf = verdict s.len s.buf := rfl
  unfold finishDFrx
  rw [hverdict]
  cases verdict s.len s.buf with
  | matched hi lo => rfl
  | noData | oversize | allSync | mismatch => exact loopBack_withRun a tr s _

/-- No phase-completion action looks at the answers or at the trace (log 4). -/
theorem completePhase_withRun : completePhase (withRun a tr s) = withRun a tr (completePhase s) := by
  cases hph : s.ph <;> simp only [completePhase, withRun_ph, hph]
  case iReset | iTable | cWait | dFifo =>
    simp only [finishIReset, finishITable, finishCWait, finishDFifo, apply_ite (withRun a tr)]
    rfl
  case dLen => exact finishDLen_withRun a tr s
  case dFrx => exact finishDFrx_withRun a tr s
  all_goals rfl

end

/-- From `s` the block emits the script, one event a step, each answered ok, and is then in `t`, whatever bytes the
answers carry, whatever answers come after them and whatever the trace was. -/
def Replays (script : List Event) (s t : State) : Prop :=
  ∀ (ys : List Byte) (rest : List Answer) (trace : List Emitted), ys.length = transportEvents script →
    core.run script.length (withRun (ys.map .ok ++ rest) trace s) =
      .next (withRun rest (trace ++ script.map fun e => ⟨e, .ok⟩) t)

@[simp] theorem transportEvents_append (a b : List Event) :
    transportEvents (a ++ b) = transportEvents a + transportEvents b := by
  simp [transportEvents]

theorem Replays.append {a b : List Event} {s t u : State} (hab : Replays a s t) (hbc : Replays b t u) :
    Replays (a ++ b) s u := by
  intro ys rest trace hlen
  rw [transportEvents_append] at hlen
  have hfirst := hab (ys.take (transportEvents a)) ((ys.drop (transportEvents a)).map .ok ++ rest) trace
    (by rw [List.length_take]; omega)
  have hsecond := hbc (ys.drop (transportEvents a)) rest (trace ++ a.map fun e => ⟨e, .ok⟩)
    (by rw [List.length_drop]; omega)
  rw [← List.append_assoc, ← List.map_append, List.take_append_drop] at hfirst
  rw [List.length_append, run_add_of_run hfirst, hsecond, List.map_append, List.append_assoc]

theorem rxBytes_of_no_rx {script : List Event} {ys : List Byte} (hrx : .rx ∉ script) : rxBytes script ys = [] := by
  induction script generalizing ys with
  | nil => rfl
  | cons e more ih =>
    obtain ⟨he, hmore⟩ := not_or.1 (mt List.mem_cons.2 hrx)
    cases hn : needsAnswer e with
    | false => simpa [rxBytes, hn] using ih hmore
    | true => cases ys <;> simp [rxBytes, hn, Ne.symm he, ih hmore]

/-- A script without a read leaves the same trace whatever bytes the answers carry. -/
theorem okTrace_of_no_rx {script : List Event} {ys : List Byte} (hrx : .rx ∉ script)
    (hlen : ys.length = transportEvents script) : okTrace script ys = script.map fun e => ⟨e, .ok⟩ := by
  induction script generalizing ys with
  | nil => rfl
  | cons e more ih =>
    obtain ⟨he, hmore⟩ := not_or.1 (mt List.mem_cons.2 hrx)
    have hok (y : Byte) : okReply e y = .ok := by
      cases e with
      | rx => exact absurd rfl he
      | sel | desel | rdy | tx | delay | reportOversize => rfl
    cases hn : needsAnswer e with
    | false => simpa [okTrace, hn, hok] using ih hmore (by simpa [transportEvents, hn] using hlen)
    | true =>
      cases ys with
      | nil => simp [transportEvents, hn] at hlen
      | cons y zs => simpa [okTrace, hn, hok] using ih hmore (by simpa [transportEvents, hn] using hlen)

/-- A transaction leaves the chip deselected. -/
theorem Transaction.foldl_csAfter {f : Format} {script : List Event} (h : Transaction f script) (cs : Bool) :
    script.foldl (fun c e => csAfter e c) cs = false := by
  cases h <;> rfl

theorem answeredThrough_transaction {f : Format} {script : List Event} {ys : List Byte} {rest a : List Answer}
    {tr : List Emitted} {s : State} (htr : Transaction f script) (hrx : .rx ∉ script)
    (hlen : ys.length = transportEvents script) :
    answeredThrough script ys rest (withRun a tr s) =
      withRun rest (tr ++ script.map fun e => ⟨e, .ok⟩) { s with cs := false } := by
  simp [answeredThrough, withRun, okTrace_of_no_rx hrx hlen, rxBytes_of_no_rx hrx, htr.foldl_csAfter]

/-- A phase that performs a transaction without a read replays its script and is completed, at whatever micro-step
that is. -/
theorem Replays.phase {s t : State} {f : Format} {script : List Event} (hr : s.resetPin = false) (hb : isBusy s = true)
    (hu : s.u = 0) (hscript : phaseScript s = script) (htr : Transaction f script) (hrx : .rx ∉ script)
    (hdone : ∀ u, completePhase { s with u := u, cs := false } = t) : Replays script s t := by
  intro ys rest trace hlen
  subst hscript
  have hne : phaseScript s ≠ [] := by
    have := htr.deselIndex_bounds
    exact List.ne_nil_of_length_pos (by omega)
  have hrun := run_phase (s := withRun (ys.map .ok ++ rest) trace s) hr hb hu hne hlen rfl
  rw [phaseScript_withRun, answeredThrough_transaction htr hrx hlen] at hrun
  rw [hrun, ← hdone (BitVec.ofNat 4 ((phaseScript s).length - 1)), ← completePhase_withRun]
  rfl

end Sys2Proof.Machine
end

section
/-! INIT: its phase table (R167), its script (R166, R168), and the run from its word to its response (R165 to R170). -/

namespace Sys2Proof.Machine

/-! ### The phase table -/

theorem phaseScript_iReset {s : State} (h : s.ph = .iReset) :
    phaseScript s = strobeScript (Config.stbCode .reset) := by
  simp [phaseScript, h]

theorem completePhase_iReset_table {s : State} (h : s.ph = .iReset) (ht : 0 < Config.table.length) :
    completePhase s = { s with ti := 0, ph := .iTable, u := 0 } := by
  simp [completePhase, h, finishIReset, ht, enterPhase]

theorem completePhase_iReset_noTable {s : State} (h : s.ph = .iReset) (ht : Config.table.length = 0) :
    completePhase s = { s with ph := .iPower, u := 0 } := by
  simp [completePhase, h, finishIReset, ht, enterPhase]

theorem phaseScript_iTable {s : State} {e : RegisterEntry} (h : s.ph = .iTable) (he : Config.table[s.ti]? = some e) :
    phaseScript s = writeScript e.reg e.val := by
  simp [phaseScript, h, he]

theorem completePhase_iTable_next {s : State} (h : s.ph = .iTable) (ht : s.ti + 1 < Config.table.length) :
    completePhase s = { s with ti := s.ti + 1, ph := .iTable, u := 0 } := by
  simp [completePhase, h, finishITable, ht, enterPhase]

theorem completePhase_iTable_last {s : State} (h : s.ph = .iTable) (ht : Config.table.length ≤ s.ti + 1) :
    completePhase s = { s with ph := .iPower, u := 0 } := by
  simp [completePhase, h, finishITable, Nat.not_lt.2 ht, enterPhase]

theorem phaseScript_iPower {s : State} (h : s.ph = .iPower) :
    phaseScript s = writeScript Config.power.reg Config.power.val := by
  simp [phaseScript, h]

theorem completePhase_iPower {s : State} (h : s.ph = .iPower) :
    completePhase s = { s with
      inited := true, rsp := { status := .ok, d1 := 0, d0 := 0 }, rspValid := true, ph := .idle, u := 0
      op := .none } := by
  simp [completePhase, h, finishIPower, complete]

/-- Settles O35: one equation for each cell of the table, the `I_RESET` and `I_TABLE` rows split as R167 splits them. -/
theorem initPhaseTable : Obligations.InitPhaseTable := fun _ =>
  ⟨fun h => ⟨phaseScript_iReset h, completePhase_iReset_table h, completePhase_iReset_noTable h⟩,
   fun h => ⟨fun _ => phaseScript_iTable h, completePhase_iTable_next h, completePhase_iTable_last h⟩,
   fun h => ⟨phaseScript_iPower h, completePhase_iPower h⟩⟩

/-! ### The script -/

theorem rx_not_mem_strobeScript (code : Byte) : .rx ∉ strobeScript code := by simp [strobeScript]
theorem rx_not_mem_writeScript (a v : Byte) : .rx ∉ writeScript a v := by simp [writeScript]

theorem strobeScript_getElem?_eq_tx {code b : Byte} {k d : Nat} :
    (strobeScript code)[k]? = some (.tx b d) ↔ k = 2 ∧ b = code ∧ d = 0 := by
  rcases k with _ | _ | _ | _ | _ | k <;> simp [strobeScript, delayStbByte, eq_comm]

theorem strobeScript_getElem?_eq_delay {code : Byte} {k n : Nat} :
    (strobeScript code)[k]? = some (.delay n) ↔ k = 4 ∧ n = 20000 := by
  rcases k with _ | _ | _ | _ | _ | k <;> simp [strobeScript, delayStbSettle, eq_comm]

/-- The bytes of a register write carry the delay 200 (R131). -/
theorem delay_of_tx_mem_writeScript {a v b : Byte} {d : Nat} (h : .tx b d ∈ writeScript a v) : d = 200 := by
  have hcases : (b = a ∧ d = 200) ∨ (b = v ∧ d = 200) := by simpa [writeScript, delayWrByte] using h
  exact hcases.elim And.right And.right

/-- The settle of a register write is 200 (R131). -/
theorem eq_of_delay_mem_writeScript {a v : Byte} {n : Nat} (h : .delay n ∈ writeScript a v) : n = 200 := by
  simpa [writeScript, delayWrSettle] using h

/-- The register writes of INIT that replay table entries (R166). -/
def tableScript (entries : List RegisterEntry) : List Event := entries.flatMap fun e => writeScript e.reg e.val

theorem initScript_eq : initScript = strobeScript (Config.stbCode .reset) ++
    (tableScript Config.table ++ writeScript Config.power.reg Config.power.val) :=
  List.append_assoc ..

theorem initScript_getElem?_of_lt {k : Nat} (h : k < 5) :
    initScript[k]? = (strobeScript (Config.stbCode .reset))[k]? := by
  rw [initScript_eq, List.getElem?_append_left h]

/-- An event of INIT is one of the Reset strobe, or comes after it and belongs to a register write (R166). -/
theorem initScript_getElem?_cases {k : Nat} {e : Event} (h : initScript[k]? = some e) :
    (strobeScript (Config.stbCode .reset))[k]? = some e ∨ (5 ≤ k ∧ ∃ a v, e ∈ writeScript a v) := by
  by_cases hk : k < 5
  · exact .inl (initScript_getElem?_of_lt hk ▸ h)
  · have hk := Nat.not_lt.1 hk
    rw [initScript_eq, List.getElem?_append_right hk] at h
    obtain hmem | hmem := List.mem_append.1 (List.mem_of_getElem? h)
    · obtain ⟨entry, -, hentry⟩ := List.mem_flatMap.1 hmem
      exact .inr ⟨hk, _, _, hentry⟩
    · exact .inr ⟨hk, _, _, hmem⟩

/-- Settles O47: the strobe is the first five events, and every event after them is one of a register write, whose
delays are 200. -/
theorem resetStrobePrecedesEveryWrite : Obligations.ResetStrobePrecedesEveryWrite := by
  refine ⟨fun k b => ⟨fun h => ?_, ?_⟩, fun k => ⟨fun h => ?_, ?_⟩, fun k b h => ?_⟩
  · obtain hstrobe | ⟨-, a, v, hwrite⟩ := initScript_getElem?_cases h
    · obtain ⟨hk, hb, -⟩ := strobeScript_getElem?_eq_tx.1 hstrobe
      exact ⟨hk, hb⟩
    · cases delay_of_tx_mem_writeScript hwrite
  · rintro ⟨rfl, rfl⟩
    exact initScript_getElem?_of_lt (by decide)
  · obtain hstrobe | ⟨-, a, v, hwrite⟩ := initScript_getElem?_cases h
    · exact (strobeScript_getElem?_eq_delay.1 hstrobe).1
    · cases eq_of_delay_mem_writeScript hwrite
  · rintro rfl
    exact initScript_getElem?_of_lt (by decide)
  · obtain hstrobe | ⟨hk, -⟩ := initScript_getElem?_cases h
    · cases (strobeScript_getElem?_eq_tx.1 hstrobe).2.2
    · exact hk

/-! ### The run -/

@[simp] theorem tableScript_cons (e : RegisterEntry) (more : List RegisterEntry) :
    tableScript (e :: more) = writeScript e.reg e.val ++ tableScript more := rfl

theorem tableScript_length (entries : List RegisterEntry) : (tableScript entries).length = 6 * entries.length := by
  induction entries with
  | nil => rfl
  | cons e more ih =>
    rw [tableScript_cons, List.length_append, ih, List.length_cons, Nat.mul_succ, Nat.add_comm]
    rfl

theorem transportEvents_tableScript (entries : List RegisterEntry) :
    transportEvents (tableScript entries) = 5 * entries.length := by
  induction entries with
  | nil => rfl
  | cons e more ih =>
    rw [tableScript_cons, transportEvents_append, ih, List.length_cons, Nat.mul_succ, Nat.add_comm]
    rfl

theorem initScript_length : initScript.length = 5 + 6 * Config.table.length + 6 := by
  rw [initScript_eq, List.length_append, List.length_append, tableScript_length, ← Nat.add_assoc]
  rfl

theorem transportEvents_initScript : transportEvents initScript = 9 + 5 * Config.table.length := by
  rw [initScript_eq, transportEvents_append, transportEvents_append, transportEvents_tableScript]
  have hstrobe : transportEvents (strobeScript (Config.stbCode .reset)) = 4 := rfl
  have hpower : transportEvents (writeScript Config.power.reg Config.power.val) = 5 := rfl
  omega

/-- The entries from `TI` on are written in order, and `TI` stays at the last one (R30, R167). -/
theorem replays_iTable {s : State} {entry : RegisterEntry} {more : List RegisterEntry} (hr : s.resetPin = false)
    (hph : s.ph = .iTable) (hu : s.u = 0) (hdrop : Config.table.drop s.ti = entry :: more) :
    Replays (tableScript (entry :: more)) s
      { s with ti := Config.table.length - 1, ph := .iPower, u := 0, cs := false } := by
  have hb : isBusy s = true := by simp [isBusy_iff, hph]
  induction more generalizing s entry with
  | nil =>
    obtain ⟨he, -, hsize⟩ := drop_eq_cons_parts hdrop
    have hti : Config.table.length = s.ti + 1 := hsize
    rw [hti]
    exact .phase hr hb hu (phaseScript_iTable hph he) (.write _ _) (rx_not_mem_writeScript _ _)
      fun _ => completePhase_iTable_last hph hti.le
  | cons next more ih =>
    obtain ⟨he, hrest, hsize⟩ := drop_eq_cons_parts hdrop
    have hti : s.ti + 1 < Config.table.length := by rw [hsize, List.length_cons]; omega
    have hentry : Replays (writeScript entry.reg entry.val) s
        { s with ti := s.ti + 1, ph := .iTable, u := 0, cs := false } :=
      .phase hr hb hu (phaseScript_iTable hph he) (.write _ _) (rx_not_mem_writeScript _ _)
        fun _ => completePhase_iTable_next hph hti
    exact hentry.append (ih hr rfl rfl hrest rfl)

/-- From `I_RESET` to the first micro-step of `I_POWER`, over the whole table (R166, R167). -/
theorem replays_iReset_iTable {s : State} (hr : s.resetPin = false) (hph : s.ph = .iReset) (hu : s.u = 0) :
    Replays (strobeScript (Config.stbCode .reset) ++ tableScript Config.table) s { s with
      ti := if Config.table.length = 0 then s.ti else Config.table.length - 1
      ph := .iPower, u := 0, cs := false } := by
  have hb : isBusy s = true := by simp [isBusy_iff, hph]
  have hstrobe {t : State} (hdone : ∀ u, completePhase { s with u := u, cs := false } = t) :
      Replays (strobeScript (Config.stbCode .reset)) s t :=
    .phase hr hb hu (phaseScript_iReset hph) (.strobe _) (rx_not_mem_strobeScript _) hdone
  by_cases hempty : Config.table = []
  · have hlen : Config.table.length = 0 := by rw [hempty]; rfl
    rw [if_pos hlen, hempty]
    exact (List.append_nil _).symm ▸ hstrobe fun _ => completePhase_iReset_noTable hph hlen
  · have hlen : 0 < Config.table.length := List.length_pos_iff.2 hempty
    obtain ⟨entry, more, htable⟩ := List.exists_cons_of_ne_nil hempty
    have hentries := replays_iTable (s := { s with ti := 0, ph := .iTable, u := 0, cs := false }) hr rfl rfl htable
    rw [← htable] at hentries
    rw [if_neg hlen.ne']
    refine Replays.append ?_ hentries
    exact hstrobe fun _ => completePhase_iReset_table hph hlen

/-- The power write ends INIT (R169). -/
theorem replays_iPower {s : State} (hr : s.resetPin = false) (hph : s.ph = .iPower) (hu : s.u = 0) :
    Replays (writeScript Config.power.reg Config.power.val) s { s with
      inited := true, rsp := { status := .ok, d1 := 0, d0 := 0 }, rspValid := true, ph := .idle, u := 0, op := .none
      cs := false } :=
  .phase hr (by simp [isBusy_iff, hph]) hu (phaseScript_iPower hph) (.write _ _) (rx_not_mem_writeScript _ _)
    fun _ => completePhase_iPower hph

theorem replays_init {s : State} (hr : s.resetPin = false) (hph : s.ph = .iReset) (hu : s.u = 0) :
    Replays initScript s { s with
      ti := if Config.table.length = 0 then s.ti else Config.table.length - 1
      inited := true, rsp := { status := .ok, d1 := 0, d0 := 0 }, rspValid := true, ph := .idle, u := 0, op := .none
      cs := false } :=
  (replays_iReset_iTable hr hph hu).append (replays_iPower hr rfl rfl)

theorem step_init {s : State} {w : HostWord} {words : List HostWord} (hr : s.resetPin = false) (hph : s.ph = .idle)
    (hw : decodeWord w = .ok .init) (ho : s.offers = w :: words) :
    step s = .next (beginOperation .init .iReset { s with offers := words, inited := false }) := by
  rw [step_word hr hph ho, hw]
  simp [exec, execInit, isIdle, hph]

/-- Settles O44: the word is accepted, then the Reset strobe, the table entries and the power write replay their
scripts one after the other. -/
theorem initReplaysTheTable : Obligations.InitReplaysTheTable := by
  intro s w words ys rest hr hph hw ho hlen ha
  refine ⟨initScript_length, ?_⟩
  have hrun := replays_init (s := beginOperation .init .iReset { s with offers := words, inited := false }) hr rfl rfl
    ys rest s.trace (by rw [hlen, transportEvents_initScript])
  rw [← ha] at hrun
  rw [Nat.add_comm, run_succ_of_step (step_init hr hph hw ho), hph]
  exact hrun

end Sys2Proof.Machine
end

section
/-! CMD: its phase table (R187), its script (R185, R188), and the run from its word to its response (R183 to R190). -/

namespace Sys2Proof.Machine

/-! ### The phase table -/

section
variable {s : State}

theorem phaseScript_cIdle (h : s.ph = .cIdle) : phaseScript s = strobeScript (Config.stbCode .idle) := by
  simp [phaseScript, h]

theorem completePhase_cIdle (h : s.ph = .cIdle) : completePhase s = { s with ph := .cFtx, u := 0 } := by
  simp [completePhase, h, enterPhase]

theorem phaseScript_cFtx (h : s.ph = .cFtx) : phaseScript s = strobeScript (Config.stbCode .flushTx) := by
  simp [phaseScript, h]

theorem completePhase_cFtx (h : s.ph = .cFtx) : completePhase s = { s with ph := .cBurst, u := 0 } := by
  simp [completePhase, h, enterPhase]

theorem phaseScript_cBurst (h : s.ph = .cBurst) :
    phaseScript s = burstScript (frame s.addrHi s.addrLo s.opcLat) := by
  simp [phaseScript, h]

theorem completePhase_cBurst (h : s.ph = .cBurst) : completePhase s = { s with ph := .cTxen, u := 0 } := by
  simp [completePhase, h, enterPhase]

theorem phaseScript_cTxen (h : s.ph = .cTxen) : phaseScript s = strobeScript (Config.stbCode .txEnable) := by
  simp [phaseScript, h]

theorem completePhase_cTxen (h : s.ph = .cTxen) : completePhase s = { s with ph := .cWait, u := 0 } := by
  simp [completePhase, h, enterPhase]

theorem phaseScript_cWait (h : s.ph = .cWait) : phaseScript s = [.delay delayCycle] := by
  simp [phaseScript, h]

theorem completePhase_cWait_next (h : s.ph = .cWait) (hrep : s.rep.toNat + 1 < 50) :
    completePhase s = { s with rep := s.rep + 1, ph := .cIdle, u := 0 } := by
  simp [completePhase, h, finishCWait, nRepeat, hrep, enterPhase]

theorem completePhase_cWait_last (h : s.ph = .cWait) (hrep : 50 ≤ s.rep.toNat + 1) :
    completePhase s = { s with
      rsp := { status := .ok, d1 := 0, d0 := 0 }, rspValid := true, ph := .idle, u := 0, op := .none } := by
  simp [completePhase, h, finishCWait, nRepeat, Nat.not_lt.2 hrep, complete]

end

/-! ### The script -/

theorem rx_not_mem_burstScript (bytes : List Byte) : .rx ∉ burstScript bytes := by simp [burstScript]

theorem cyclesScript_zero (bytes : List Byte) : cyclesScript 0 bytes = [] := rfl

theorem cyclesScript_succ (n : Nat) (bytes : List Byte) :
    cyclesScript (n + 1) bytes = cycleScript bytes ++ cyclesScript n bytes := rfl

/-- A transmit cycle is 28 events: three strobes, the 12 events of the burst and the wait (R185). -/
theorem cyclesScript_frame_length (n : Nat) (hi lo opc : Byte) :
    (cyclesScript n (frame hi lo opc)).length = 28 * n := by
  induction n with
  | zero => rfl
  | succ n ih =>
    rw [cyclesScript_succ, List.length_append, ih, Nat.mul_succ, Nat.add_comm]
    rfl

/-- The transport answers 24 events of a cycle: all but the settles of the strobes and the wait (R251). -/
theorem transportEvents_cyclesScript_frame (n : Nat) (hi lo opc : Byte) :
    transportEvents (cyclesScript n (frame hi lo opc)) = 24 * n := by
  induction n with
  | zero => rfl
  | succ n ih =>
    rw [cyclesScript_succ, transportEvents_append, ih, Nat.mul_succ, Nat.add_comm]
    rfl

/-! ### The run -/

theorem eventOk_withRun_free {e : Event} (hn : needsAnswer e = false) (a : List Answer) (tr : List Emitted)
    (s : State) :
    eventOk e 0 (withRun a tr s) = withRun a (tr ++ [⟨e, .ok⟩]) s := by
  cases e with
  | delay | reportOversize => rfl
  | sel | desel | rdy | tx | rx => cases hn

/-- A phase that is a single event of the block's own replays it and is completed (R28, R251). -/
theorem Replays.single {s : State} {e : Event} (hr : s.resetPin = false) (hb : isBusy s = true) (hu : s.u = 0)
    (hscript : phaseScript s = [e]) (hn : needsAnswer e = false) : Replays [e] s (completePhase s) := by
  intro ys rest trace hlen
  obtain rfl : ys = [] := List.eq_nil_of_length_eq_zero (by simpa [transportEvents, hn] using hlen)
  have hnext : nextEvent (withRun rest trace s) = some e := by
    simp [nextEvent, phaseScript_withRun, hscript, show (withRun rest trace s).u = 0 from hu]
  have hstep := step_answeredOk (s := withRun rest trace s) (rest := rest) hr hb hnext (.inr ⟨hn, rfl, rfl⟩)
  rw [show withAnswers rest (withRun rest trace s) = withRun rest trace s from rfl, eventOk_withRun_free hn,
    phaseScript_withRun, hscript, moveOn_last (by simp), completePhase_withRun] at hstep
  exact run_succ_of_step hstep

/-- The four transactions of a transmit cycle, up to its wait (R185, R187). -/
theorem replays_cycle_transactions {s : State} (hr : s.resetPin = false) (hph : s.ph = .cIdle) (hu : s.u = 0) :
    Replays (strobeScript (Config.stbCode .idle) ++ strobeScript (Config.stbCode .flushTx) ++
        burstScript (frame s.addrHi s.addrLo s.opcLat) ++ strobeScript (Config.stbCode .txEnable))
      s { s with ph := .cWait, u := 0, cs := false } := by
  have hidle : Replays (strobeScript (Config.stbCode .idle)) s { s with ph := .cFtx, u := 0, cs := false } :=
    .phase hr (by simp [isBusy_iff, hph]) hu (phaseScript_cIdle hph) (.strobe _) (rx_not_mem_strobeScript _)
      fun _ => completePhase_cIdle hph
  have hflush : Replays (strobeScript (Config.stbCode .flushTx)) { s with ph := .cFtx, u := 0, cs := false }
      { s with ph := .cBurst, u := 0, cs := false } :=
    .phase hr rfl rfl (phaseScript_cFtx rfl) (.strobe _) (rx_not_mem_strobeScript _) fun _ => completePhase_cFtx rfl
  have hburst : Replays (burstScript (frame s.addrHi s.addrLo s.opcLat))
      { s with ph := .cBurst, u := 0, cs := false } { s with ph := .cTxen, u := 0, cs := false } :=
    .phase hr rfl rfl (phaseScript_cBurst rfl) (.burst _ _ _) (rx_not_mem_burstScript _)
      fun _ => completePhase_cBurst rfl
  have henable : Replays (strobeScript (Config.stbCode .txEnable)) { s with ph := .cTxen, u := 0, cs := false }
      { s with ph := .cWait, u := 0, cs := false } :=
    .phase hr rfl rfl (phaseScript_cTxen rfl) (.strobe _) (rx_not_mem_strobeScript _) fun _ => completePhase_cTxen rfl
  exact ((hidle.append hflush).append hburst).append henable

/-- One transmit cycle; `REP` decides what its wait completes to (R31, R187). -/
theorem replays_cycle {s t : State} (hr : s.resetPin = false) (hph : s.ph = .cIdle) (hu : s.u = 0)
    (hdone : completePhase { s with ph := .cWait, u := 0, cs := false } = t) :
    Replays (cycleScript (frame s.addrHi s.addrLo s.opcLat)) s t :=
  (replays_cycle_transactions hr hph hu).append (hdone ▸ .single hr rfl rfl (phaseScript_cWait rfl) rfl)

/-- The cycles that are left, `n + 1` of them when `REP` is `49 - n`, and the response (R188, R190). -/
theorem replays_cycles {s : State} {n : Nat} (hr : s.resetPin = false) (hph : s.ph = .cIdle) (hu : s.u = 0)
    (hrep : s.rep.toNat + n = 49) :
    Replays (cyclesScript (n + 1) (frame s.addrHi s.addrLo s.opcLat)) s { s with
      rep := 49, rsp := { status := .ok, d1 := 0, d0 := 0 }, rspValid := true, ph := .idle, u := 0, op := .none
      cs := false } := by
  induction n generalizing s with
  | zero =>
    have hlast : s.rep = 49 := BitVec.eq_of_toNat_eq hrep
    rw [cyclesScript_succ, cyclesScript_zero, List.append_nil, ← hlast]
    exact replays_cycle hr hph hu (completePhase_cWait_last rfl (by simp [hlast]))
  | succ n ih =>
    have hlt : s.rep.toNat + 1 < 50 := by omega
    have hsucc : (s.rep + 1).toNat = s.rep.toNat + 1 := BitVec.toNat_add_of_lt (by simp; omega)
    have hcycle : Replays (cycleScript (frame s.addrHi s.addrLo s.opcLat)) s
        { s with rep := s.rep + 1, ph := .cIdle, u := 0, cs := false } :=
      replays_cycle hr hph hu (completePhase_cWait_next rfl hlt)
    exact hcycle.append (ih (s := { s with rep := s.rep + 1, ph := .cIdle, u := 0, cs := false }) hr rfl rfl
      (by rw [hsucc]; omega))

theorem exec_commandInstr (c : Command) (s : State) : exec (commandInstr c) s = acceptCommand c s := by
  cases c <;> rfl

theorem step_command {s : State} {c : Command} {w : HostWord} {words : List HostWord} (hr : s.resetPin = false)
    (hph : s.ph = .idle) (hv : s.addrValid = true) (hw : decodeWord w = .ok (commandInstr c))
    (ho : s.offers = w :: words) :
    step s = .next (beginOperation .cmd .cIdle { s with offers := words, opcLat := commandOpcode c, rep := 0 }) := by
  rw [step_word hr hph ho, hw]
  simp [exec_commandInstr, acceptCommand, isIdle, hph, hv]

/-- The rows of R93 are those of `commandInstr`. -/
theorem eq_commandInstr_of_mem {c : Command} {i : Instr}
    (h : (c, i) ∈ [(Command.lightOff, Instr.cmdOff), (.lightOn50, .cmdOn50), (.lightOn100, .cmdOn100),
      (.pair, .cmdPair)]) : i = commandInstr c := by
  simp only [List.mem_cons, Prod.mk.injEq, List.not_mem_nil, or_false] at h
  obtain ⟨rfl, rfl⟩ | ⟨rfl, rfl⟩ | ⟨rfl, rfl⟩ | ⟨rfl, rfl⟩ := h <;> rfl

/-- Settles O45: the word is accepted with `REP` 0, then the transmit cycle is replayed until `REP` is 49, by induction
on the cycles left. -/
theorem commandSendsFiftyCycles : Obligations.CommandSendsFiftyCycles := by
  intro s c i w words ys rest hmem hr hph hv hw ho hlen ha
  obtain rfl := eq_commandInstr_of_mem hmem
  refine ⟨cyclesScript_frame_length 50 _ _ _, ?_⟩
  have hrun := replays_cycles (n := 49)
    (s := beginOperation .cmd .cIdle { s with offers := words, opcLat := commandOpcode c, rep := 0 }) hr rfl rfl rfl
    ys rest s.trace (by rw [hlen, transportEvents_cyclesScript_frame])
  rw [← ha, cyclesScript_frame_length] at hrun
  rw [Nat.add_comm, run_succ_of_step (step_command hr hph hv hw ho), hph]
  exact hrun

end Sys2Proof.Machine
end

section
/-! The parser of R210 read at indices: `min S` is the library's first index of a byte that is not 0x55, and the verdict
for `1 <= LEN <= 8` follows from what `BUF` holds there. -/

namespace Sys2Proof.Machine

/-- `min S` of R210 is the library's search for the first byte that fails a test. -/
theorem firstNonSync_eq_findIdx? (bytes : List Byte) : firstNonSync bytes = bytes.findIdx? (· != syncByte) := by
  induction bytes with
  | nil => rfl
  | cons b more ih => by_cases h : b = syncByte <;> simp [firstNonSync, List.findIdx?_cons, h, ih]

/-- `S` of R210 is empty when every byte below `LEN` is 0x55. -/
theorem firstNonSync_received_eq_none {m : Memory} {n : Nat} (h : ∀ i, i < n → Memory.read m i = syncByte) :
    firstNonSync (received m n) = none := by
  simpa [firstNonSync_eq_findIdx?, List.findIdx?_eq_none_iff, received] using h

/-- The index that is not 0x55 and has only 0x55 before it is `min S` of R210. -/
theorem firstNonSync_received_eq_some {m : Memory} {n s : Nat} (hs : s < n) (hne : Memory.read m s ≠ syncByte)
    (hbefore : ∀ i, i < s → Memory.read m i = syncByte) : firstNonSync (received m n) = some s := by
  rw [firstNonSync_eq_findIdx?, List.findIdx?_eq_some_iff_getElem]
  exact ⟨by simpa using hs, by simpa [received] using hne, by simpa [received] using hbefore⟩

theorem parse_of_firstNonSync_none {bytes : List Byte} (h : firstNonSync bytes = none) : parse bytes = .allSync := by
  simp [parse, h]

/-- A terminator position at or past `LEN` is a terminator mismatch (R213). -/
theorem parse_received_of_no_terminator {m : Memory} {n s : Nat} (h : firstNonSync (received m n) = some s)
    (hend : n ≤ s + 4) : parse (received m n) = .mismatch := by
  have hterm : (received m n)[s + 4]? = none := by simp [hend]
  simp [parse, h, hterm]

/-- With all five bytes of the payload below `LEN`, the discriminator and the terminator decide (R210, R214). -/
theorem parse_received_of_payload {m : Memory} {n s : Nat} (h : firstNonSync (received m n) = some s)
    (hend : s + 4 < n) : parse (received m n) =
      if Memory.read m s = discrimByte ∧ Memory.read m (s + 4) = termByte then
        .matched (Memory.read m (s + 1)) (Memory.read m (s + 2))
      else .mismatch := by
  have hbyte (i : Nat) (hi : i ≤ s + 4) : (received m n)[i]? = some (Memory.read m i) := by
    rw [received_getElem?, if_pos (by omega)]
  simp [parse, h, hbyte]

/-- A length of 1 to 8 is parsed (R206, R223). -/
theorem verdict_of_parsed_length {len : Byte} (m : Memory) (hpos : 1 ≤ len.toNat) (hmax : len.toNat ≤ 8) :
    verdict len m = parse (received m len.toNat) := by
  have hnot : ¬ maxPkt < len.toNat := Nat.not_lt.2 hmax
  rw [verdict, if_neg (by omega), if_neg hnot]

/-- Settles O6: the first index that is not 0x55 is none or `s`, and at `s` the payload ends past `LEN` or below it. -/
theorem parserFollowsFirstNonSyncByte : Obligations.ParserFollowsFirstNonSyncByte := by
  intro len buf hpos hmax
  rw [verdict_of_parsed_length buf hpos hmax]
  refine ⟨fun hsync => parse_of_firstNonSync_none (firstNonSync_received_eq_none hsync), fun s hs hne hbefore => ?_⟩
  have hfirst := firstNonSync_received_eq_some hs hne hbefore
  by_cases hend : len.toNat ≤ s + 4
  · rw [if_pos hend, parse_received_of_no_terminator hfirst hend]
  · rw [if_neg hend, parse_received_of_payload hfirst (Nat.lt_of_not_le hend)]
    rfl

end Sys2Proof.Machine
end

section
/-! The Address registers (R21, R242): which operations leave them as they were, the two that write them, and the
statements of this family. -/

namespace Sys2Proof.Machine

/-- `ADDR_HI`, `ADDR_LO` and `ADDR_VALID` are in `t` as they were in `s`. -/
def SameAddress (s t : State) : Prop := t.addrHi = s.addrHi ∧ t.addrLo = s.addrLo ∧ t.addrValid = s.addrValid

/-- The block holds the Address `hi`, `lo`. -/
def HoldsAddress (hi lo : Byte) (t : State) : Prop := t.addrHi = hi ∧ t.addrLo = lo ∧ t.addrValid = true

theorem sameAddress_enterPhase (p : Phase) (s : State) : SameAddress s (enterPhase p s) := ⟨rfl, rfl, rfl⟩
theorem sameAddress_complete (st : Status) (d1 d0 : Byte) (s : State) : SameAddress s (complete st d1 d0 s) :=
  ⟨rfl, rfl, rfl⟩
theorem holdsAddress_acceptAddress (hi lo : Byte) (s : State) : HoldsAddress hi lo (acceptAddress hi lo s) :=
  ⟨rfl, rfl, rfl⟩

/-- Of the Accept steps only that of SETA writes the Address. -/
theorem Accepted.address {s t : State} {i : Instr} (h : Accepted s i t) :
    SameAddress s t ∨ ∃ hi lo, i = .seta hi lo ∧ HoldsAddress hi lo t := by
  cases h with
  | seta hi lo => exact .inr ⟨hi, lo, rfl, rfl, rfl, rfl⟩
  | init | command | violation | disc | wreg | rreg | strobe => exact .inl ⟨rfl, rfl, rfl⟩

/-- An iteration without a match leaves the Address alone (R217). -/
theorem sameAddress_loopBack (v : LastVerdict) (s : State) : SameAddress s (loopBack v s) := by
  unfold loopBack
  split
  · exact sameAddress_complete _ _ _ _
  · exact sameAddress_enterPhase _ _

/-- `D_FRX` completes with the matched address, or leaves the Address alone (R216, R217). -/
theorem finishDFrx_address (s : State) :
    SameAddress s (finishDFrx s) ∨
      ∃ hi lo, verdict s.len s.buf = .matched hi lo ∧ HoldsAddress hi lo (finishDFrx s) := by
  unfold finishDFrx
  split
  · next hi lo hv => exact .inr ⟨hi, lo, hv, holdsAddress_acceptAddress hi lo s⟩
  all_goals exact .inl (sameAddress_loopBack _ s)

/-- No phase but `D_FRX` writes the Address when it completes. -/
theorem sameAddress_completePhase {s : State} (hph : s.ph ≠ .dFrx) : SameAddress s (completePhase s) := by
  cases hp : s.ph <;> simp only [completePhase, hp]
  case dFrx => exact absurd hp hph
  case idle | halt => exact ⟨rfl, rfl, rfl⟩
  case iReset =>
    unfold finishIReset
    split <;> exact sameAddress_enterPhase _ _
  case iTable =>
    unfold finishITable
    split <;> exact sameAddress_enterPhase _ _
  case cWait =>
    unfold finishCWait
    split
    · exact sameAddress_enterPhase _ _
    · exact sameAddress_complete _ _ _ _
  case dLen =>
    unfold finishDLen
    split
    · exact sameAddress_enterPhase _ _
    · split <;> exact sameAddress_enterPhase _ _
  case dFifo =>
    unfold finishDFifo
    split <;> exact sameAddress_enterPhase _ _
  case iPower | pWr | pRd | pStb => exact sameAddress_complete _ _ _ _
  all_goals exact sameAddress_enterPhase _ _

theorem completePhase_dFrx {s : State} (hph : s.ph = .dFrx) : completePhase s = finishDFrx s := by
  simp [completePhase, hph]

/-- The last micro-step of `D_FRX` is the one of index 4 (R152, R220). -/
theorem u_eq_four_of_dFrx_last {s : State} {e : Event} (hph : s.ph = .dFrx) (he : nextEvent s = some e)
    (hlast : ¬ s.u.toNat + 1 < (phaseScript s).length) : s.u = 4 := by
  have hlen : (phaseScript s).length = 5 := by simp [phaseScript, hph, strobeScript]
  obtain ⟨hlt, -⟩ := List.getElem?_eq_some_iff.1 he
  have hu : s.u.toNat = 4 := by omega
  exact BitVec.eq_of_toNat_eq hu

/-- An answered event leaves the Address alone, unless it is the one that completes a matching `D_FRX` (R216). -/
theorem emitted_address {s t : State} {e : Event} {y : Byte} {rest : List Answer} (he : nextEvent s = some e)
    (ht : t = moveOn (phaseScript s) completePhase (eventOk e y (withAnswers rest s))) :
    SameAddress s t ∨
      (s.ph = .dFrx ∧ s.u = 4 ∧ ∃ hi lo, verdict s.len s.buf = .matched hi lo ∧ HoldsAddress hi lo t) := by
  subst ht
  by_cases hin : s.u.toNat + 1 < (phaseScript s).length
  · rw [moveOn_inside (by simpa [eventOk] using hin)]
    exact .inl ⟨rfl, rfl, rfl⟩
  · rw [moveOn_last (by simpa [eventOk] using hin)]
    by_cases hph : s.ph = .dFrx
    · rw [completePhase_dFrx (s := eventOk e y (withAnswers rest s)) hph]
      exact (finishDFrx_address (eventOk e y (withAnswers rest s))).imp_right fun hmatch =>
        ⟨hph, u_eq_four_of_dFrx_last hph he hin, hmatch⟩
    · exact .inl (sameAddress_completePhase (s := eventOk e y (withAnswers rest s)) hph)

/-- Settles O54: of the ways a step can go on, only accepting SETA and completing a matching `D_FRX` write the
Address. -/
theorem addressIsWrittenOnlyBySetaAndDisc : Obligations.AddressIsWrittenOnlyBySetaAndDisc := by
  intro s t hreset hs
  cases step_next hs with
  | reset hr => simp [hreset] at hr
  | noWord | illegal | unanswered | failed => exact .inl ⟨rfl, rfl, rfl⟩
  | accept hr hi ho hw ha =>
    obtain hsame | ⟨ahi, alo, rfl, haddr⟩ := ha.address
    · exact .inl hsame
    · exact .inr (.inl ⟨hi, _, _, ahi, alo, ho, hw, haddr⟩)
  | emitted hr hb he => exact (emitted_address he rfl).imp_right .inr

/-- Settles O14: the idle branch of SETA (R241). -/
theorem setaAssignsTheAddress : Obligations.SetaAssignsTheAddress := by
  intro s hi lo hidle
  exact if_pos (isIdle_iff.2 hidle)

end Sys2Proof.Machine
end

section
/-! Taking an exception: the failed event of a busy block (R257), the CMD without an Address (R258) and the illegal word
(R261). -/

namespace Sys2Proof.Machine

/-- Only a busy block has an event to emit (R27, R45). -/
theorem isBusy_of_nextEvent {s : State} {e : Event} (he : nextEvent s = some e) : isBusy s = true := by
  refine isBusy_iff.2 ⟨fun hidle => ?_, fun hhalt => ?_⟩
  · simp [nextEvent, phaseScript, hidle] at he
  · simp [nextEvent, phaseScript, hhalt] at he

/-- The state of R257 is the one that a failed event leaves. -/
theorem eventFailed_withAnswers (e : Event) (rest : List Answer) (s : State) :
    eventFailed e (withAnswers rest s) = transportHalt e rest s := rfl

/-- Settles O29: the block is busy, so the step emits its event, and the answer `fail` takes the failing branch. -/
theorem transportFailureHalts : Obligations.TransportFailureHalts := by
  intro s e rest hr he hn ha
  have hb : isBusy s = true := isBusy_of_nextEvent he
  rw [step_busy hr hb, emitAt_of_event he, emitEvent_fail hn ha, eventFailed_withAnswers]

/-- The violation branch of the Accept step of CMD (R258), the same for every command. -/
theorem acceptCommand_of_no_address {s : State} (c : Command) (hi : s.ph = .idle) (hv : s.addrValid = false) :
    acceptCommand c s = .next (raiseProtocolViolation s) := by
  simp [acceptCommand, isIdle_iff.2 hi, hv]

/-- Settles O12: each of the four operations is the `acceptCommand` of its command, which needs an Address. -/
theorem commandWithoutAddressHalts : Obligations.CommandWithoutAddressHalts := by
  intro s i hcmd hi hv
  obtain ⟨c, rfl⟩ : ∃ c, i = commandInstr c := by
    obtain rfl | rfl | rfl | rfl := hcmd
    · exact ⟨.lightOff, rfl⟩
    · exact ⟨.lightOn50, rfl⟩
    · exact ⟨.lightOn100, rfl⟩
    · exact ⟨.pair, rfl⟩
  rw [exec_commandInstr, acceptCommand_of_no_address c hi hv]
  rfl

/-- Settles O27: the idle block takes the word from the port, and the decoder's error is answered by `refuseIllegal`. -/
theorem illegalWordIsRefusedInPlace : Obligations.IllegalWordIsRefusedInPlace := by
  intro s w rest e hr hi ho hw
  rw [step_word hr hi ho, hw]
  rfl

end Sys2Proof.Machine
end

section
/-! Host words and wire bytes: what the decoder reads is what the encoder writes (R90 to R107, R110), and the words
that it refuses (R97). -/

namespace Sys2Proof

/-- Leading sync bytes are counted and skipped (R107). -/
theorem decodePacketFrom_replicate_sync (n sync : Nat) (bytes : List Byte) :
    decodePacketFrom n (List.replicate sync syncByte ++ bytes) = decodePacketFrom (n + sync) bytes := by
  induction sync generalizing n with
  | zero => rfl
  | succ k ih => simpa [List.replicate_succ, decodePacketFrom, Nat.add_right_comm _ 1, Nat.add_assoc] using ih (n + 1)

/-- The payload of R107 at the first byte that is not 0x55. -/
theorem decodePacketFrom_payload (n : Nat) (hi lo x : Byte) (rest : List Byte) :
    decodePacketFrom n (discrimByte :: hi :: lo :: x :: termByte :: rest) = .ok (.wp n hi lo x rest) := by
  have hne : discrimByte ≠ syncByte := by decide
  simp [decodePacketFrom, hne]

/-- The bytes of a packet are read back, whatever their number. -/
theorem decodePacketFrom_encode_wp (sync : Nat) (hi lo x : Byte) (rest : List Byte) :
    decodePacketFrom 0 (encode (.wp sync hi lo x rest)) = .ok (.wp sync hi lo x rest) := by
  rw [encode, decodePacketFrom_replicate_sync, Nat.zero_add, decodePacketFrom_payload]

/-- The read bit stands above bits 6:0 of the id and leaves them as they are (R101). -/
theorem readHeaderOf_bits (id : BitVec 7) :
    (readHeaderOf id).getLsbD 7 = true ∧ (readHeaderOf id).setWidth 7 = id := by
  revert id
  decide

/-- Settles O1: the constant bytes of each row are those its format asks for, the read header keeps the id, and the sync
bytes of a packet are counted up to its payload. -/
theorem decodeEncodeRoundTrip : Obligations.DecodeEncodeRoundTrip := by
  intro i hwf
  cases i with
  | init | cmdOff | cmdOn50 | cmdOn100 | cmdPair | disc | seta | wreg | rreg | stbIdle | stbTxen | stbFtx | stbReset
  | stbRxen | stbFrx | ww | ws | wf => rfl
  | wr id =>
    obtain ⟨hbit, hid⟩ := readHeaderOf_bits id
    simp [Instr.format, encode, decode, hbit, hid]
  | wp sync hi lo x rest =>
    have hlen : (encode (.wp sync hi lo x rest)).length ≤ 8 := by
      simp only [Instr.wellFormed, decide_eq_true_eq] at hwf
      simp only [encode, List.length_append, List.length_replicate, List.length_cons]
      omega
    simp only [Instr.format, decode, hlen, if_true, decodePacketFrom_encode_wp]

/-! ### The 24-bit word and its three fields (R90) -/

section
variable (opc a b : Byte)

theorem wordOpc_wordOfFields : wordOpc (wordOfFields opc a b) = opc :=
  (BitVec.extractLsb'_append_eq_of_le (by decide)).trans BitVec.extractLsb'_append_eq_left

theorem wordA_wordOfFields : wordA (wordOfFields opc a b) = a :=
  (BitVec.extractLsb'_append_eq_of_le (by decide)).trans BitVec.extractLsb'_append_eq_right

theorem wordB_wordOfFields : wordB (wordOfFields opc a b) = b := BitVec.extractLsb'_append_eq_right

theorem decodeWord_wordOfFields : decodeWord (wordOfFields opc a b) = decodeFields opc a b := by
  rw [decodeWord, wordOpc_wordOfFields, wordA_wordOfFields, wordB_wordOfFields]

end

/-- The three fields are all of the word. -/
theorem wordOfFields_fields (w : HostWord) : wordOfFields (wordOpc w) (wordA w) (wordB w) = w := by
  have hhigh : wordOpc w ++ wordA w = w.extractLsb' 8 16 := BitVec.extractLsb'_append_extractLsb'_eq_extractLsb' rfl
  rw [wordOfFields, hhigh]
  exact (BitVec.extractLsb'_append_extractLsb'_eq_extractLsb' rfl).trans BitVec.extractLsb'_eq_self

/-- A host operation is encoded in three bytes (R90). -/
theorem exists_encode_of_host {i : Instr} (h : i.format = .host) : ∃ opc a b, encode i = [opc, a, b] := by
  cases i with
  | ww | wr | ws | wf | wp => cases h
  | _ => exact ⟨_, _, _, rfl⟩

theorem encodeWord_of_encode {i : Instr} {opc a b : Byte} (h : encode i = [opc, a, b]) :
    encodeWord i = wordOfFields opc a b := by
  simp [encodeWord, h]

theorem wellFormed_of_host {i : Instr} (h : i.format = .host) : i.wellFormed = true := by
  cases i with
  | wp => cases h
  | _ => rfl

/-! ### The rows of R91 -/

/-- The host operation `i` has the operand fields `a` and `b` after its operation code. -/
def HostRow (opc a b : Byte) (i : Instr) : Prop := encode i = [opc, a, b] ∧ i.format = .host

theorem hostRow_of_decodeNoOperands {opc a b : Byte} {i j : Instr} (hj : HostRow opc 0 0 j)
    (h : decodeNoOperands a b j = .ok i) : HostRow opc a b i := by
  unfold decodeNoOperands at h
  split at h
  · next hz =>
    obtain ⟨rfl, rfl⟩ := hz
    cases h
    exact hj
  · cases h

theorem eq_ofNat_of_toNat_eq {a : Byte} {n : Nat} (h : a.toNat = n) : a = BitVec.ofNat 8 n := by
  rw [← h, BitVec.ofNat_toNat, BitVec.setWidth_eq]

/-- The selectors of R93 are those that the encodings of the four CMD rows carry. -/
theorem hostRow_of_decodeCommand {a b : Byte} {i : Instr} (h : decodeCommand a b = .ok i) : HostRow 0x02 a b i := by
  unfold decodeCommand at h
  split at h
  · next hb =>
    split at h
    case h_5 => cases h
    all_goals
      next ha =>
      cases h
      rw [hb, eq_ofNat_of_toNat_eq ha]
      exact ⟨rfl, rfl⟩
  · cases h

/-- The selectors of R96 are those that the encodings of the six STB rows carry. -/
theorem hostRow_of_decodeStrobe {a b : Byte} {i : Instr} (h : decodeStrobe a b = .ok i) : HostRow 0x07 a b i := by
  unfold decodeStrobe at h
  split at h
  · next hb =>
    split at h
    case h_7 => cases h
    all_goals
      next ha =>
      cases h
      rw [hb, eq_ofNat_of_toNat_eq ha]
      exact ⟨rfl, rfl⟩
  · cases h

/-- Three fields that decode are the encoding of what they decode to. -/
theorem hostRow_of_decodeFields {opc a b : Byte} {i : Instr} (h : decodeFields opc a b = .ok i) :
    HostRow opc a b i := by
  unfold decodeFields at h
  split at h
  case h_8 => cases h
  case h_1 hopc | h_3 hopc => exact eq_ofNat_of_toNat_eq hopc ▸ hostRow_of_decodeNoOperands ⟨rfl, rfl⟩ h
  case h_2 hopc => exact eq_ofNat_of_toNat_eq hopc ▸ hostRow_of_decodeCommand h
  case h_4 hopc | h_5 hopc =>
    cases h
    rw [eq_ofNat_of_toNat_eq hopc]
    exact ⟨rfl, rfl⟩
  case h_6 hopc =>
    split at h
    · next hb =>
      cases h
      rw [eq_ofNat_of_toNat_eq hopc, hb]
      exact ⟨rfl, rfl⟩
    · cases h
  case h_7 hopc => exact eq_ofNat_of_toNat_eq hopc ▸ hostRow_of_decodeStrobe h

/-- A word that decodes, decodes to a host operation (R91). -/
theorem format_of_decodeWord {w : HostWord} {i : Instr} (h : decodeWord w = .ok i) : i.format = .host :=
  (hostRow_of_decodeFields h).2

/-- Settles O2: a host operation's three bytes decode to it, and so does the word they make; a word that decodes is made
of the three bytes of its row. -/
theorem hostWordsMatchTheirEncodings : Obligations.HostWordsMatchTheirEncodings := by
  refine ⟨fun i hhost => ?_, fun w i hw => ?_⟩
  · obtain ⟨opc, a, b, henc⟩ := exists_encode_of_host hhost
    have hbytes := decodeEncodeRoundTrip i (wellFormed_of_host hhost)
    rw [hhost, henc] at hbytes
    rw [encodeWord_of_encode henc, decodeWord_wordOfFields]
    exact hbytes
  · obtain ⟨henc, hhost⟩ := hostRow_of_decodeFields hw
    exact ⟨(encodeWord_of_encode henc).trans (wordOfFields_fields w), hhost⟩

/-! ### The refused words (R97) -/

theorem decodeNoOperands_error_iff {a b : Byte} {i : Instr} :
    (∃ e, decodeNoOperands a b i = .error e) ↔ a ≠ 0 ∨ b ≠ 0 := by
  unfold decodeNoOperands
  split <;> simp_all [← not_and_or]

theorem decodeCommand_error_iff {a b : Byte} :
    (∃ e, decodeCommand a b = .error e) ↔ b ≠ 0 ∨ 3 < a.toNat := by
  unfold decodeCommand
  split
  · next hb =>
    split
    case h_5 =>
      have hsel : 3 < a.toNat := by grind
      simp [hsel]
    all_goals simp [*]
  · next hb => exact ⟨fun _ => .inl hb, fun _ => ⟨_, rfl⟩⟩

theorem decodeStrobe_error_iff {a b : Byte} :
    (∃ e, decodeStrobe a b = .error e) ↔ b ≠ 0 ∨ 5 < a.toNat := by
  unfold decodeStrobe
  split
  · next hb =>
    split
    case h_7 =>
      have hsel : 5 < a.toNat := by grind
      simp [hsel]
    all_goals simp [*]
  · next hb => exact ⟨fun _ => .inl hb, fun _ => ⟨_, rfl⟩⟩

/-- The rows of R97 over the three fields. -/
theorem decodeFields_error_iff {opc a b : Byte} :
    (∃ e, decodeFields opc a b = .error e) ↔
      opc.toNat = 0 ∨ 8 ≤ opc.toNat ∨ ((opc = 0x01 ∨ opc = 0x03) ∧ (a ≠ 0 ∨ b ≠ 0)) ∨
      ((opc = 0x02 ∨ opc = 0x06 ∨ opc = 0x07) ∧ b ≠ 0) ∨ (opc = 0x02 ∧ 3 < a.toNat) ∨
      (opc = 0x07 ∧ 5 < a.toNat) := by
  unfold decodeFields
  split
  case h_8 =>
    have hrange : opc.toNat = 0 ∨ 8 ≤ opc.toNat := by grind
    rcases hrange with h | h <;> simp [h]
  case h_1 hopc | h_3 hopc =>
    obtain rfl := eq_ofNat_of_toNat_eq hopc
    simp [decodeNoOperands_error_iff]
  case h_2 hopc =>
    obtain rfl := eq_ofNat_of_toNat_eq hopc
    simp [decodeCommand_error_iff]
  case h_4 hopc | h_5 hopc =>
    obtain rfl := eq_ofNat_of_toNat_eq hopc
    simp
  case h_6 hopc =>
    obtain rfl := eq_ofNat_of_toNat_eq hopc
    split
    · next hb => simp [hb]
    · next hb => simpa using hb
  case h_7 hopc =>
    obtain rfl := eq_ofNat_of_toNat_eq hopc
    simp [decodeStrobe_error_iff]

/-- Settles O3: each operation code has its own must-be-0 fields and selector range, and the others are reserved. -/
theorem illegalWordsAreTheReservedOnes : Obligations.IllegalWordsAreTheReservedOnes :=
  fun _ => decodeFields_error_iff

/-- Settles O4: closed words, evaluated by the decoder. -/
theorem writtenOutWordsDecode : Obligations.WrittenOutWordsDecode := by
  unfold Obligations.WrittenOutWordsDecode
  decide

end Sys2Proof
end

section
/-! The verdict of an iteration (R206, R210, R222, R223) and the packets that match (R107, R214). -/

namespace Sys2Proof.Machine

/-- At a first byte that is not 0x55, the discriminator and the terminator decide (R210). -/
theorem parse_payload {b : Byte} (hb : b ≠ syncByte) (hi lo x t : Byte) (rest : List Byte) :
    parse (b :: hi :: lo :: x :: t :: rest) =
      if b = discrimByte ∧ t = termByte then .matched hi lo else .mismatch := by
  simp [parse, firstNonSync, hb]

/-- What the parser of R210 matches, the layout of R107 reads as a packet with the same address. -/
theorem decodePacketFrom_of_parse {bytes : List Byte} {hi lo : Byte} (n : Nat) (h : parse bytes = .matched hi lo) :
    ∃ sync x rest, decodePacketFrom n bytes = .ok (.wp sync hi lo x rest) := by
  fun_induction decodePacketFrom n bytes with
  | case1 => simp [parse, firstNonSync] at h
  | case2 n more ih => exact ih (parse_cons_sync more ▸ h)
  | case3 n b hb hi' lo' x t rest hdt =>
    rw [parse_payload hb, if_pos hdt] at h
    cases h
    exact ⟨n, x, rest, rfl⟩
  | case4 n b hb hi' lo' x t rest hdt =>
    rw [parse_payload hb, if_neg hdt] at h
    cases h
  | case5 n b more hb hshort =>
    exfalso
    match more with
    | [] | [_] | [_, _] | [_, _, _] => simp [parse, firstNonSync, hb] at h
    | hi' :: lo' :: x :: t :: rest => exact hshort hi' lo' x t rest rfl

/-- A packet of at most 8 bytes is what the layout reads from its first byte (R107). -/
theorem decode_packet_of_length {bytes : List Byte} (h : bytes.length ≤ 8) :
    decode .packet bytes = decodePacketFrom 0 bytes := by
  simp [decode, h]

/-- Settles O5: from the parser to the layout and back, each by recursion on the leading sync bytes. -/
theorem parserAgreesWithPacketLayout : Obligations.ParserAgreesWithPacketLayout := by
  intro bytes hi lo hlen
  rw [decode_packet_of_length hlen]
  refine ⟨decodePacketFrom_of_parse 0, fun ⟨sync, x, rest, hdec⟩ => ?_⟩
  obtain ⟨_, _, _, _, _, hwp, hparse⟩ := parse_of_decodePacketFrom hdec
  cases hwp
  exact hparse

/-- Settles O9: the bytes are the encoding of a packet, which the decoder reads back and the parser therefore
matches. -/
theorem syncRunThenPayloadMatches : Obligations.SyncRunThenPayloadMatches := by
  intro sync hi lo x rest _
  obtain ⟨_, _, _, _, _, hwp, hparse⟩ := parse_of_decodePacketFrom (decodePacketFrom_encode_wp sync hi lo x rest)
  cases hwp
  rw [List.append_assoc]
  exact hparse

/-- The parser gives one of its own three verdicts, never one that the length byte gives (R223). -/
theorem parse_ne_length_verdict (bytes : List Byte) : parse bytes ≠ .noData ∧ parse bytes ≠ .oversize := by
  unfold parse
  split
  · exact ⟨nofun, nofun⟩
  · split
    · split <;> exact ⟨nofun, nofun⟩
    · exact ⟨nofun, nofun⟩

theorem verdict_of_oversize {len : Byte} (m : Memory) (h : 8 < len.toNat) : verdict len m = .oversize := by
  rw [verdict, if_neg (by omega), if_pos (show maxPkt < len.toNat from h)]

/-- Settles O7: the length byte is 0, above 8, or parsed, and the parser answers neither of the first two verdicts. -/
theorem lengthByteDecidesTheBranch : Obligations.LengthByteDecidesTheBranch := by
  intro len buf
  obtain ⟨hne_noData, hne_oversize⟩ := parse_ne_length_verdict (received buf len.toNat)
  rcases Nat.eq_zero_or_pos len.toNat with hzero | hpos
  · obtain rfl : len = 0 := BitVec.eq_of_toNat_eq hzero
    exact ⟨iff_of_true rfl rfl, iff_of_false nofun (by decide), fun hpos => absurd hpos (by decide)⟩
  · have hlen : len ≠ 0 := by
      rintro rfl
      exact absurd hpos (by decide)
    by_cases hover : 8 < len.toNat
    · rw [verdict_of_oversize buf hover]
      exact ⟨iff_of_false nofun hlen, iff_of_true rfl hover, fun _ hmax => absurd hover (Nat.not_lt.2 hmax)⟩
    · rw [verdict_of_parsed_length buf hpos (Nat.not_lt.1 hover)]
      exact ⟨iff_of_false hne_noData hlen, iff_of_false hne_oversize hover, fun _ _ => rfl⟩

/-- Settles O8: the buffer enters the verdict by the bytes below `LEN` alone. -/
theorem verdictIgnoresStaleBytes : Obligations.VerdictIgnoresStaleBytes := by
  intro len b c heq
  rw [verdict, verdict, received_congr heq]

end Sys2Proof.Machine
end

section
/-! The Accept steps (R133, R136, R153, R165, R183, R201), and host operations given to a block that is not idle
(R33). -/

namespace Sys2Proof.Machine

section
variable {s : State}

theorem acceptCommand_of_address (c : Command) (hi : s.ph = .idle) (hv : s.addrValid = true) :
    acceptCommand c s = .next (beginOperation .cmd .cIdle { s with opcLat := commandOpcode c, rep := 0 }) := by
  simp [acceptCommand, isIdle_iff.2 hi, hv]

theorem acceptCommand_of_not_idle (c : Command) (hi : s.ph ≠ .idle) : acceptCommand c s = .next s :=
  if_neg (mt isIdle_iff.1 hi)

theorem acceptStrobe_of_idle (k : Strobe) (hi : s.ph = .idle) :
    acceptStrobe k s = .next (beginOperation .stb .pStb { s with pa := strobeSelector k }) :=
  if_pos (isIdle_iff.2 hi)

theorem acceptStrobe_of_not_idle (k : Strobe) (hi : s.ph ≠ .idle) : acceptStrobe k s = .next s :=
  if_neg (mt isIdle_iff.1 hi)

theorem exec_wreg_of_idle (a v : Byte) (hi : s.ph = .idle) :
    exec (.wreg a v) s = .next (beginOperation .wreg .pWr { s with pa := a, pb := v }) :=
  if_pos (isIdle_iff.2 hi)

theorem exec_rreg_of_idle (a : Byte) (hi : s.ph = .idle) :
    exec (.rreg a) s = .next (beginOperation .rreg .pRd { s with pa := a }) :=
  if_pos (isIdle_iff.2 hi)

end

/-- Settles O10: the idle branch of INIT. -/
theorem initIsAccepted : Obligations.InitIsAccepted := fun _ hi => if_pos (isIdle_iff.2 hi)

/-- Settles O13: the idle branch of DISC. -/
theorem discIsAccepted : Obligations.DiscIsAccepted := fun _ hi => if_pos (isIdle_iff.2 hi)

/-- Settles O11: the four operations are `acceptCommand` of their commands, begun when there is an Address. -/
theorem commandIsAccepted : Obligations.CommandIsAccepted := fun _ hi hv =>
  ⟨acceptCommand_of_address .lightOff hi hv, acceptCommand_of_address .lightOn50 hi hv,
    acceptCommand_of_address .lightOn100 hi hv, acceptCommand_of_address .pair hi hv⟩

/-- Settles O15: the idle branches of WREG, RREG and of `acceptStrobe` for each strobe. -/
theorem primitiveOperationsAreAccepted : Obligations.PrimitiveOperationsAreAccepted := fun _ a v hi =>
  ⟨exec_wreg_of_idle a v hi, exec_rreg_of_idle a hi, acceptStrobe_of_idle .idle hi,
    acceptStrobe_of_idle .txEnable hi, acceptStrobe_of_idle .flushTx hi, acceptStrobe_of_idle .reset hi,
    acceptStrobe_of_idle .rxEnable hi, acceptStrobe_of_idle .flushRx hi⟩

/-- Settles O16: every host operation tests for the idle block first. -/
theorem hostWordsHaveNoEffectUnlessIdle : Obligations.HostWordsHaveNoEffectUnlessIdle := by
  intro s i hhost hi
  cases i with
  | init | disc | seta | wreg | rreg => exact if_neg (mt isIdle_iff.1 hi)
  | cmdOff | cmdOn50 | cmdOn100 | cmdPair => exact acceptCommand_of_not_idle _ hi
  | stbIdle | stbTxen | stbFtx | stbReset | stbRxen | stbFrx => exact acceptStrobe_of_not_idle _ hi
  | ww | wr | ws | wf | wp => cases hhost

/-- A host operation never stops the block. -/
theorem exec_host_isNext {i : Instr} (hhost : i.format = .host) (s : State) : ∃ t, exec i s = .next t := by
  by_cases hi : s.ph = .idle
  · cases i with
    | init | disc | seta | wreg | rreg => exact ⟨_, if_pos (isIdle_iff.2 hi)⟩
    | cmdOff | cmdOn50 | cmdOn100 | cmdPair =>
      cases hv : s.addrValid with
      | true => exact ⟨_, acceptCommand_of_address _ hi hv⟩
      | false => exact ⟨_, acceptCommand_of_no_address _ hi hv⟩
    | stbIdle | stbTxen | stbFtx | stbReset | stbRxen | stbFrx => exact ⟨_, acceptStrobe_of_idle _ hi⟩
    | ww | wr | ws | wf | wp => cases hhost
  · exact ⟨s, hostWordsHaveNoEffectUnlessIdle s i hhost hi⟩

end Sys2Proof.Machine
end

section
/-! What a phase-completion action leaves alone: the ports, the trace, the select record and the halt registers. -/

namespace Sys2Proof.Machine

/-- The state with other words offered, another select record and other halt registers. -/
def withUntouched (offers : List HostWord) (cs : Bool) (c : Cause) (fph : BitVec 5) (fu : BitVec 4) (s : State) :
    State :=
  { s with offers := offers, cs := cs, cause := c, fph := fph, fu := fu }

section
variable (o : List HostWord) (b : Bool) (c : Cause) (fph : BitVec 5) (fu : BitVec 4) (s : State)

@[simp] theorem withUntouched_ph : (withUntouched o b c fph fu s).ph = s.ph := rfl

theorem loopBack_withUntouched (v : LastVerdict) :
    loopBack v (withUntouched o b c fph fu s) = withUntouched o b c fph fu (loopBack v s) := by
  rw [loopBack, loopBack, apply_ite (withUntouched o b c fph fu)]
  rfl

theorem finishDFrx_withUntouched :
    finishDFrx (withUntouched o b c fph fu s) = withUntouched o b c fph fu (finishDFrx s) := by
  have hverdict : verdict (withUntouched o b c fph fu s).len (withUntouched o b c fph fu s).buf =
    verdict s.len s.buf := rfl
  unfold finishDFrx
  rw [hverdict]
  cases verdict s.len s.buf with
  | matched hi lo => rfl
  | noData | oversize | allSync | mismatch => exact loopBack_withUntouched o b c fph fu s _

/-- No phase-completion action looks at the command port, at `CS` or at the halt registers (R33, R36, R37). -/
theorem completePhase_withUntouched :
    completePhase (withUntouched o b c fph fu s) = withUntouched o b c fph fu (completePhase s) := by
  cases hph : s.ph <;> simp only [completePhase, withUntouched_ph, hph]
  case iReset | iTable | cWait | dFifo | dLen =>
    simp only [finishIReset, finishITable, finishCWait, finishDFifo, finishDLen, apply_ite (withUntouched o b c fph fu)]
    rfl
  case dFrx => exact finishDFrx_withUntouched o b c fph fu s
  all_goals rfl

end

section
variable (s : State)

theorem completePhase_untouched :
    completePhase s = withUntouched s.offers s.cs s.cause s.fph s.fu (completePhase s) :=
  completePhase_withUntouched s.offers s.cs s.cause s.fph s.fu s

theorem completePhase_offers : (completePhase s).offers = s.offers :=
  (congrArg State.offers (completePhase_untouched s) :)
theorem completePhase_cs : (completePhase s).cs = s.cs := (congrArg State.cs (completePhase_untouched s) :)
theorem completePhase_cause : (completePhase s).cause = s.cause := (congrArg State.cause (completePhase_untouched s) :)
theorem completePhase_fph : (completePhase s).fph = s.fph := (congrArg State.fph (completePhase_untouched s) :)
theorem completePhase_fu : (completePhase s).fu = s.fu := (congrArg State.fu (completePhase_untouched s) :)
theorem completePhase_trace : (completePhase s).trace = s.trace :=
  (congrArg State.trace (completePhase_withRun s.answers s.trace s) :)

end

/-- What the move of the position leaves alone, inside a phase and at its end. -/
theorem moveOn_untouched (script : List Event) (s : State) :
    (moveOn script completePhase s).offers = s.offers ∧ (moveOn script completePhase s).cs = s.cs ∧
      (moveOn script completePhase s).trace = s.trace := by
  unfold moveOn
  split
  · exact ⟨rfl, rfl, rfl⟩
  · exact ⟨completePhase_offers s, completePhase_cs s, completePhase_trace s⟩

/-! ### The trace of one step -/

/-- No Accept step emits an event or moves `CS`. -/
theorem Accepted.trace_cs {s t : State} {i : Instr} (h : Accepted s i t) : t.trace = s.trace ∧ t.cs = s.cs := by
  cases h <;> exact ⟨rfl, rfl⟩

/-- What one step adds to the trace: nothing, or the event of its position with an answer, and `CS` follows it (R36). -/
theorem step_trace {s t : State} (hr : s.resetPin = false) (h : step s = .next t) :
    (t.trace = s.trace ∧ t.cs = s.cs) ∨
      ∃ e r, nextEvent s = some e ∧ t.trace = s.trace ++ [⟨e, r⟩] ∧
        t.cs = if r = .fail then s.cs else csAfter e s.cs := by
  cases step_next h with
  | reset hr' => simp [hr] at hr'
  | noWord | illegal | unanswered => exact .inl ⟨rfl, rfl⟩
  | accept _ _ _ _ ha => exact .inl ha.trace_cs
  | failed _ _ he => exact .inr ⟨_, .fail, he, rfl, rfl⟩
  | @emitted e y rest _ _ he =>
    have hreply : okReply e y ≠ .fail := by cases e <;> nofun
    obtain ⟨-, hcs, htrace⟩ := moveOn_untouched (phaseScript s) (eventOk e y (withAnswers rest s))
    exact .inr ⟨e, okReply e y, he, htrace, hcs.trans (if_neg hreply).symm⟩

/-- Settles O56: a reset keeps the trace, and every other step adds nothing or one event. -/
theorem stepEmitsAtMostOneEvent : Obligations.StepEmitsAtMostOneEvent := by
  intro s t h
  cases hr : s.resetPin with
  | true =>
    rw [step_reset hr] at h
    cases h
    exact .inl rfl
  | false =>
    obtain ⟨htrace, -⟩ | ⟨e, r, he, htrace, -⟩ := step_trace hr h
    · exact .inl htrace
    · exact .inr ⟨e, r, he, htrace⟩

theorem csAfter_eq_ite (e : Event) (cs : Bool) :
    csAfter e cs = if e = .sel then true else if e = .desel then false else cs := by
  cases e <;> rfl

/-- Settles O60: the trace grows by at most one entry, which is therefore the one that `CS` follows. -/
theorem selectRecordFollowsTheEvents : Obligations.SelectRecordFollowsTheEvents := by
  intro s t hr h
  obtain ⟨htrace, hcs⟩ | ⟨e, r, -, htrace, hcs⟩ := step_trace hr h
  · refine ⟨fun _ => hcs, fun e r hnew => ?_⟩
    simp [htrace] at hnew
  · refine ⟨fun hsame => ?_, fun e' r' hnew => ?_⟩
    · simp [htrace] at hsame
    · obtain ⟨rfl, rfl⟩ : e = e' ∧ r = r' := by simpa [htrace] using hnew
      rw [hcs, csAfter_eq_ite]

end Sys2Proof.Machine
end

section
/-! The invariants of R47 and of the position one step at a time, the bracket discipline of the trace (R137), and that a
state in the position's ranges always goes on unless it is halted. -/

namespace Sys2Proof.Machine

/-- Settles O49: each way a step can go on keeps (a) to (h). -/
theorem stepKeepsSpecInvariant : Obligations.StepKeepsSpecInvariant := fun _ _ h hs => h.step hs

/-- Settles O50: each way a step can go on keeps the ranges, the exact `CS` and the form of `BUF`. -/
theorem stepKeepsPositionInvariant : Obligations.StepKeepsPositionInvariant := fun _ _ h hs => h.step hs

/-- Settles O48: the reset state is what a hardware reset leaves. -/
theorem resetSatisfiesInvariants : Obligations.ResetSatisfiesInvariants :=
  ⟨.hardwareReset State.reset, .hardwareReset State.reset, rfl⟩

/-! ### Brackets -/

/-- The events that R137 allows only inside a bracket; the others it allows only outside one. -/
def needsBracket (e : Event) : Bool :=
  match e with
  | .desel | .rdy | .tx _ _ | .rx => true
  | .sel | .delay _ | .reportOversize _ => false

/-- An event where R137 allows it is no breach, and the bracket afterwards is as `CS` is. -/
theorem bracketAfter_of_needsBracket (e : Event) (r : Reply) :
    bracketAfter (needsBracket e) ⟨e, r⟩ =
      some (if r = .fail then needsBracket e else csAfter e (needsBracket e)) := by
  cases e with
  | sel | desel => by_cases hr : r = .fail <;> simp [bracketAfter, needsBracket, csAfter, hr]
  | rdy | tx | rx | delay | reportOversize => simp [bracketAfter, needsBracket, csAfter]

/-- In a transaction the events between `SEL` and `DESEL`, and `DESEL` itself, are those that need the bracket. -/
theorem Transaction.map_needsBracket {f : Format} {script : List Event} (h : Transaction f script) :
    script.map needsBracket = (List.range script.length).map fun k => decide (1 ≤ k ∧ k ≤ deselIndex f) := by
  cases h <;> rfl

theorem Transaction.needsBracket_getElem? {f : Format} {script : List Event} (h : Transaction f script) {k : Nat}
    {e : Event} (he : script[k]? = some e) : needsBracket e = decide (1 ≤ k ∧ k ≤ deselIndex f) := by
  obtain ⟨hk, rfl⟩ := List.getElem?_eq_some_iff.1 he
  have hmap := congrArg (·[k]?) h.map_needsBracket
  simpa [hk] using hmap

/-- A busy phase without a transaction is one event that takes place outside a bracket (R28, R137). -/
theorem phaseScript_single_outside {s : State} {e : Event} (hf : phaseFormat s.ph = none) (he : e ∈ phaseScript s) :
    needsBracket e = false := by
  cases hph : s.ph <;> simp [hph, phaseFormat] at hf <;> simp [phaseScript, hph] at he
  all_goals
    subst he
    rfl

/-- The event of a position needs the bracket exactly when the position is inside it (R47 (b)). -/
theorem needsBracket_nextEvent {s : State} {e : Event} (he : nextEvent s = some e) :
    needsBracket e = insideBracket s := by
  cases hf : phaseFormat s.ph with
  | none => simp [insideBracket, hf, phaseScript_single_outside hf (List.mem_of_getElem? he)]
  | some f =>
    have htr := phaseScript_transaction hf fun hnil => by simp [nextEvent, hnil] at he
    simp only [insideBracket, hf, htr.needsBracket_getElem? he]

theorem bracketState_append (b : Bool) (trace more : List Emitted) :
    bracketState b (trace ++ more) = (bracketState b trace).bind fun c => bracketState c more := by
  induction trace generalizing b with
  | nil => rfl
  | cons x trace ih => cases hx : bracketAfter b x <;> simp [bracketState, hx, ih]

theorem bracketState_singleton (b : Bool) (x : Emitted) : bracketState b [x] = bracketAfter b x := by
  cases hx : bracketAfter b x <;> simp [bracketState, hx]

/-- Settles O51: the position's ranges make `CS` say whether the position is inside a bracket, so the event of the
position stands where R137 allows it. -/
theorem stepKeepsBracketDiscipline : Obligations.StepKeepsBracketDiscipline := by
  intro s t hpos hbr hr hs
  have hbr : bracketState false s.trace = some s.cs := hbr
  obtain ⟨htrace, hcs⟩ | ⟨e, r, he, htrace, hcs⟩ := step_trace hr hs
  · rw [Bracketed, htrace, hcs, hbr]
  · have hopen : s.cs = needsBracket e := by
      rw [needsBracket_nextEvent he]
      exact hpos.select_exact (isBusy_iff.1 (isBusy_of_nextEvent he)).2
    rw [Bracketed, htrace, bracketState_append, hbr, Option.bind_some, bracketState_singleton, hcs, hopen]
    exact bracketAfter_of_needsBracket e r

/-! ### Going on -/

/-- In the position's ranges every phase performs a script. -/
theorem PositionInvariant.phaseScript_ne_nil {s : State} (h : PositionInvariant s) (hb : isBusy s = true) :
    phaseScript s ≠ [] := by
  obtain ⟨hidle, hhalt⟩ := isBusy_iff.1 hb
  cases hph : s.ph
  case idle => exact absurd hph hidle
  case halt => exact absurd hph hhalt
  case iTable => simp [phaseScript, hph, h.table_index hph, writeScript]
  case pStb =>
    obtain ⟨k, hk⟩ := Option.isSome_iff_exists.1 (h.strobe_selector hph)
    simp [phaseScript, hph, hk, strobeScript]
  all_goals simp [phaseScript, hph, writeScript, readScript, strobeScript, burstScript]

/-- In the position's ranges every busy block has an event. -/
theorem PositionInvariant.exists_nextEvent {s : State} (h : PositionInvariant s) (hb : isBusy s = true) :
    ∃ e, nextEvent s = some e := by
  obtain ⟨first, more, hscript⟩ := List.exists_cons_of_ne_nil (h.phaseScript_ne_nil hb)
  have hlen : (phaseScript s).length = phaseLength s.ph :=
    phaseScript_length (s := { s with u := 0 }) hb (congrArg (·[0]?) hscript)
  have hu : s.u.toNat < (phaseScript s).length := hlen ▸ h.micro_step hb
  exact ⟨_, List.getElem?_eq_getElem hu⟩

/-- An idle block goes on whatever is offered. -/
theorem step_idle_isNext {s : State} (hr : s.resetPin = false) (hi : s.ph = .idle) : ∃ t, step s = .next t := by
  cases ho : s.offers with
  | nil => exact ⟨s, step_waiting hr hi ho⟩
  | cons w rest =>
    rw [step_word hr hi ho]
    cases hw : decodeWord w with
    | error err => exact ⟨_, rfl⟩
    | ok i => exact exec_host_isNext (format_of_decodeWord hw) _

/-- Settles O52: a reset and an idle block always go on, and a busy block in the position's ranges has an event to
emit. -/
theorem invariantStatesStopOnlyHalted : Obligations.InvariantStatesStopOnlyHalted := by
  intro s hpos
  cases hr : s.resetPin with
  | true => exact .inl ⟨_, step_reset hr⟩
  | false =>
    by_cases hhalt : s.ph = .halt
    · exact .inr ⟨step_halted hr hhalt, hhalt⟩
    by_cases hidle : s.ph = .idle
    · exact .inl (step_idle_isNext hr hidle)
    have hb : isBusy s = true := isBusy_iff.2 ⟨hidle, hhalt⟩
    obtain ⟨e, he⟩ := hpos.exists_nextEvent hb
    rw [SafeOutcome, step_busy hr hb, emitAt_of_event he]
    exact .inl (emitEvent_isNext _ _ _)

end Sys2Proof.Machine
end

section
/-! The wire formats one micro-step at a time (R132, R135, R152, R187): what the event at an index of a script does, and
where a format does not go on. -/

namespace Sys2Proof.Machine

/-! ### A micro-step of any script -/

section
variable {script : List Event} {done : State → State} {s : State} {u : BitVec 4} {e : Event} {y : Byte}
  {rest : List Answer}

/-- An event answered ok, with another one after it in the script: `U` moves on. -/
theorem emitAt_inside (hu : s.u = u) (ha : s.answers = .ok y :: rest) (he : script[u.toNat]? = some e)
    (hn : needsAnswer e = true := by rfl) (hmore : script[u.toNat + 1]?.isSome = true := by rfl) :
    emitAt script done s = .next { s with
      answers := rest, cs := csAfter e s.cs, rdata := rdataAfter e y s.rdata, u := u + 1
      trace := s.trace ++ [⟨e, okReply e y⟩] } := by
  subst hu
  rw [emitAt_of_event he, emitEvent_ok hn ha, moveOn_eventOk_inside e y rest s (by simpa using hmore)]
  rfl

/-- The last event of a script, answered ok: the phase completes. -/
theorem emitAt_last (hu : s.u = u) (ha : s.answers = .ok y :: rest) (he : script[u.toNat]? = some e)
    (hn : needsAnswer e = true := by rfl) (hlast : script[u.toNat + 1]? = none := by rfl) :
    emitAt script done s = .next (done { s with
      answers := rest, cs := csAfter e s.cs, rdata := rdataAfter e y s.rdata
      trace := s.trace ++ [⟨e, okReply e y⟩] }) := by
  subst hu
  rw [emitAt_of_event he, emitEvent_ok hn ha]
  exact congrArg _ (moveOn_last (List.getElem?_eq_none_iff.1 hlast))

/-- The last event of a script, where it takes no answer. -/
theorem emitAt_last_free (hu : s.u = u) (he : script[u.toNat]? = some e) (hn : needsAnswer e = false := by rfl)
    (hlast : script[u.toNat + 1]? = none := by rfl) :
    emitAt script done s = .next (done { s with trace := s.trace ++ [⟨e, .ok⟩] }) := by
  subst hu
  rw [emitAt_of_event he, emitEvent_free hn]
  cases e with
  | delay | reportOversize => exact congrArg _ (moveOn_last (List.getElem?_eq_none_iff.1 hlast))
  | sel | desel | rdy | tx | rx => cases hn

/-- An event answered fail halts the block, whatever its index. -/
theorem emitAt_fail (hu : s.u = u) (ha : s.answers = .fail :: rest) (he : script[u.toNat]? = some e)
    (hn : needsAnswer e = true := by rfl) : emitAt script done s = .next (transportHalt e rest s) := by
  subst hu
  rw [emitAt_of_event he, emitEvent_fail hn ha, eventFailed_withAnswers]

/-- Where the first `n` events of a script all need an answer, the block waits at each of them. -/
theorem emitAt_wait {n : Nat} (hu : s.u.toNat < n) (ha : s.answers = [])
    (hall : (script.take n).all needsAnswer = true := by rfl) (hlen : (script.take n).length = n := by rfl) :
    emitAt script done s = .next s := by
  have hu' : s.u.toNat < (script.take n).length := hu.trans_eq hlen.symm
  have he : script[s.u.toNat]? = some (script.take n)[s.u.toNat] := by
    rw [← List.getElem?_eq_getElem hu', List.getElem?_take_of_lt hu]
  rw [emitAt_of_event he, emitEvent_wait (List.all_eq_true.1 hall _ (List.getElem_mem hu')) ha]

theorem emitAt_past (hu : script.length ≤ s.u.toNat) : emitAt script done s = .fault .badPosition :=
  emitAt_of_none (List.getElem?_eq_none hu)

end

/-! ### The formats where their phase performs them -/

section
variable {s : State}

theorem exec_ww_of_format (h : phaseFormat s.ph = some .registerWrite) (a v : Byte) :
    exec (.ww a v) s = emitAt (writeScript a v) completePhase s := transact_of_format h

/-- The header on the wire is the id with the read bit (R101). -/
theorem exec_wr_of_format (h : phaseFormat s.ph = some .registerRead) (a : BitVec 7) :
    exec (.wr a) s = emitAt (readScript (a.setWidth 8 ||| 0x80)) completePhase s := transact_of_format h

theorem exec_ws_of_format (h : phaseFormat s.ph = some .strobe) (c : Byte) :
    exec (.ws c) s = emitAt (strobeScript c) completePhase s := transact_of_format h

theorem exec_wf_of_format (h : phaseFormat s.ph = some .frame) (hi lo opc : Byte) :
    exec (.wf hi lo opc) s = emitAt (burstScript (frame hi lo opc)) completePhase s := transact_of_format h

end

/-- Settles O17: the script `WR(a, v)` read at each index. -/
theorem registerWriteMicroSteps : Obligations.RegisterWriteMicroSteps := by
  intro s a v hf
  simp only [exec_ww_of_format hf]
  refine ⟨fun y rest ha => ⟨?_, ?_, ?_, ?_, ?_⟩, ?_, fun rest ha => ⟨?_, ?_, ?_, ?_, ?_⟩⟩ <;> intro hu
  case refine_1 | refine_2 | refine_3 | refine_4 | refine_5 => exact Eq.trans (emitAt_inside hu ha rfl) rfl
  case refine_6 => exact Eq.trans (emitAt_last_free hu rfl) rfl
  all_goals exact emitAt_fail hu ha rfl

/-- Settles O18: the script `RD(a)` read at each index. -/
theorem registerReadMicroSteps : Obligations.RegisterReadMicroSteps := by
  intro s a hf
  simp only [exec_wr_of_format hf]
  refine ⟨fun y rest ha => ⟨?_, ?_, ?_, ?_, ?_⟩, fun rest ha => ⟨?_, ?_, ?_, ?_, ?_⟩⟩ <;> intro hu
  case refine_1 | refine_2 | refine_3 | refine_4 => exact Eq.trans (emitAt_inside hu ha rfl) rfl
  case refine_5 => exact Eq.trans (emitAt_last hu ha rfl) rfl
  all_goals exact emitAt_fail hu ha rfl

/-- Settles O19: the script `STB(s)` read at each index. -/
theorem strobeMicroSteps : Obligations.StrobeMicroSteps := by
  intro s c hf
  simp only [exec_ws_of_format hf]
  refine ⟨fun y rest ha => ⟨?_, ?_, ?_, ?_⟩, ?_, fun rest ha => ⟨?_, ?_, ?_, ?_⟩⟩ <;> intro hu
  case refine_1 | refine_2 | refine_3 | refine_4 => exact Eq.trans (emitAt_inside hu ha rfl) rfl
  case refine_5 => exact Eq.trans (emitAt_last_free hu rfl) rfl
  all_goals exact emitAt_fail hu ha rfl

/-- Byte `k` of a burst is the event at index `k + 2`, after `SEL` and `RDY`, and `DESEL` is still to come (R185). -/
theorem burstScript_getElem?_byte {bytes : List Byte} {k : Nat} {b : Byte} (h : bytes[k]? = some b) :
    (burstScript bytes)[k + 2]? = some (.tx b 0) ∧ (burstScript bytes)[k + 2 + 1]?.isSome = true := by
  obtain ⟨hk, rfl⟩ := List.getElem?_eq_some_iff.1 h
  simp [burstScript, List.getElem?_append, hk, delayFrameByte]

/-- Settles O20: the script `BURST(F)` read at each index, the nine bytes by one lemma on the bytes of a burst. -/
theorem burstMicroSteps : Obligations.BurstMicroSteps := by
  intro s hi lo opc hf
  have hbyte {b : Byte} (hmin : 2 ≤ s.u.toNat)
      (hb : [0x7F, 0x06, 0x55, 0x01, hi, lo, opc, 0xAA, 0xFF][s.u.toNat - 2]? = some b) :
      (burstScript (frame hi lo opc))[s.u.toNat]? = some (.tx b 0) ∧
        (burstScript (frame hi lo opc))[s.u.toNat + 1]?.isSome = true := by
    simpa [Nat.sub_add_cancel hmin] using burstScript_getElem?_byte (bytes := frame hi lo opc) hb
  simp only [exec_wf_of_format hf]
  refine ⟨fun y rest ha => ⟨?_, ?_, ?_, ?_⟩, fun rest ha => ⟨?_, ?_, ?_, ?_⟩⟩
  · exact fun hu => Eq.trans (emitAt_inside hu ha rfl) rfl
  · exact fun hu => Eq.trans (emitAt_inside hu ha rfl) rfl
  · exact fun b hmin _ hb => emitAt_inside rfl ha (hbyte hmin hb).1 rfl (hbyte hmin hb).2
  · exact fun hu => Eq.trans (emitAt_last hu ha rfl) rfl
  · exact fun hu => emitAt_fail hu ha rfl
  · exact fun hu => emitAt_fail hu ha rfl
  · exact fun b hmin _ hb => emitAt_fail rfl ha (hbyte hmin hb).1
  · exact fun hu => emitAt_fail hu ha rfl

/-- The packet's one micro-step: the settle of the closing strobe, then R216. -/
theorem exec_wp_of_position {s : State} (hph : s.ph = .dFrx) (hu : s.u = 4) (sync : Nat) (hi lo x : Byte)
    (rest : List Byte) :
    exec (.wp sync hi lo x rest) s =
      emitAt (strobeScript (Config.stbCode .flushRx)) (acceptAddress hi lo) s :=
  if_pos ⟨hph, hu⟩

/-- Settles O21: the settle is the last event of the closing strobe, and `acceptAddress` follows it. -/
theorem packetStoresItsAddress : Obligations.PacketStoresItsAddress := by
  intro s sync hi lo x rest hph hu
  rw [exec_wp_of_position hph hu]
  exact Eq.trans (emitAt_last_free hu rfl) rfl

/-- Settles O22: each wire format tests its position first. -/
theorem wireFormatsRunOnlyAtTheirPosition : Obligations.WireFormatsRunOnlyAtTheirPosition := fun _ =>
  ⟨fun h _ _ => if_neg h, fun h _ => if_neg h, fun h _ => if_neg h, fun h _ _ _ => if_neg h,
    fun h _ _ _ _ _ => if_neg h⟩

/-- Settles O23: the indices at which a script's event needs an answer, and those past its end. -/
theorem wireFormatsWaitOrNameTheirStop : Obligations.WireFormatsWaitOrNameTheirStop := by
  refine fun s => ⟨fun hf a v => ?_, fun hf a => ?_, fun hf c => ?_, fun hf hi lo c => ?_⟩
  · rw [exec_ww_of_format hf]
    exact ⟨fun hu ha => emitAt_wait (n := 5) (by omega) ha, fun hu => emitAt_past hu⟩
  · rw [exec_wr_of_format hf]
    exact ⟨fun hu ha => emitAt_wait (n := 5) (by omega) ha, fun hu => emitAt_past hu⟩
  · rw [exec_ws_of_format hf]
    exact ⟨fun hu ha => emitAt_wait (n := 4) (by omega) ha, fun hu => emitAt_past hu⟩
  · rw [exec_wf_of_format hf]
    exact ⟨fun hu ha => emitAt_wait (n := 12) (by omega) ha, fun hu => emitAt_past hu⟩

end Sys2Proof.Machine
end

section
/-! One step of the block (R33, R45, R290): the instruction it runs, the event it emits, the halted block and the reset,
and the numbers that the host sees (R28, R37 to R41, R98, R99). -/

namespace Sys2Proof.Machine

/-- Settles O24: the word leaves the port and its instruction is run. -/
theorem stepRunsTheDecodedWord : Obligations.StepRunsTheDecodedWord := by
  intro s w rest i hr hi ho hw
  rw [step_word hr hi ho, hw]

/-! ### The instruction of a position -/

section
variable {s : State} (hr : s.resetPin = false)
include hr

theorem step_of_busyInstr {i : Instr} (hb : isBusy s = true) (hi : busyInstr s = some i) : step s = exec i s := by
  rw [step_busy_fetch hr hb, hi]

/-- Where no packet is taken, a phase that performs a transaction runs it as its instruction. -/
theorem step_of_phaseInstr {i : Instr} (hp : packetInstr s = none) (hi : phaseInstr s = some i) :
    step s = exec i s := by
  refine step_of_busyInstr hr (isBusy_iff.2 ⟨fun hidle => ?_, fun hhalt => ?_⟩) (by simp [busyInstr, hp, hi])
  · simp [phaseInstr, hidle] at hi
  · simp [phaseInstr, hhalt] at hi

/-- A position without an event is the fault `badPosition`. -/
theorem step_of_no_script (hb : isBusy s = true) (hscript : phaseScript s = []) : step s = .fault .badPosition := by
  rw [step_busy hr hb, hscript]
  exact emitAt_past (Nat.zero_le _)

/-- A phase that is a single event of the block's own completes at it, and has no other micro-step. -/
theorem step_of_single {e : Event} (hb : isBusy s = true) (hscript : phaseScript s = [e])
    (hn : needsAnswer e = false) :
    (s.u = 0 → step s = .next (completePhase { s with trace := s.trace ++ [⟨e, .ok⟩] })) ∧
    (s.u ≠ 0 → step s = .fault .badPosition) := by
  rw [step_busy hr hb, hscript]
  refine ⟨fun hu => emitAt_last_free hu rfl hn, fun hu => emitAt_past ?_⟩
  exact Nat.pos_of_ne_zero fun h => hu (BitVec.eq_of_toNat_eq h)

end

theorem packetInstr_of_ne_dFrx {s : State} (h : s.ph ≠ .dFrx) : packetInstr s = none := if_neg fun hpos => h hpos.1

theorem packetInstr_of_decode {s : State} {i : Instr} (hph : s.ph = .dFrx) (hu : s.u = 4) (hlen : s.len.toNat ≤ 8)
    (hi : decode .packet (received s.buf s.len.toNat) = .ok i) : packetInstr s = some i := by
  rw [packetInstr, if_pos ⟨hph, hu, hlen⟩, hi]

/-- Off the last micro-step, above 8 bytes, or where the bytes decode to nothing, there is no packet to take. -/
theorem packetInstr_of_no_packet {s : State}
    (h : s.u ≠ 4 ∨ 8 < s.len.toNat ∨ ∀ i, decode .packet (received s.buf s.len.toNat) ≠ .ok i) :
    packetInstr s = none := by
  unfold packetInstr
  split
  · next hpos =>
    obtain ⟨-, hu, hlen⟩ := hpos
    split
    · next i hi =>
      obtain hne | hlong | hno := h
      · exact absurd hu hne
      · exact absurd hlen (Nat.not_le.2 hlong)
      · exact absurd hi (hno i)
    · rfl
  · rfl

/-- Selectors above 5 name no strobe (R96). -/
theorem strobeOfSelector_of_gt {a : Byte} (h : 5 < a.toNat) : strobeOfSelector a = none := by
  unfold strobeOfSelector
  split
  case h_7 => rfl
  all_goals omega

/-- Settles O26: the packet is the instruction of its position. -/
theorem stepRunsTheReceivedPacket : Obligations.StepRunsTheReceivedPacket := by
  intro s i hr hph hu hlen hi
  exact step_of_busyInstr hr (by simp [isBusy_iff, hph]) (by simp [busyInstr, packetInstr_of_decode hph hu hlen hi])

/-- Settles O25: the table of R28 is `phaseInstr` where a phase performs a transaction; the other positions have one
event or none. -/
theorem stepRunsTheTransactionOfItsPhase : Obligations.StepRunsTheTransactionOfItsPhase := by
  intro s hr
  have hbusy {p : Phase} (h : s.ph = p) (hp : p ≠ .idle ∧ p ≠ .halt) : isBusy s = true := isBusy_iff.2 (h ▸ hp)
  have hinstr {p : Phase} {i : Instr} (h : s.ph = p) (hp : p ≠ .dFrx) (hi : phaseInstr s = some i) :
      step s = exec i s := step_of_phaseInstr hr (packetInstr_of_ne_dFrx (h ▸ hp)) hi
  refine ⟨?iReset, ?iTable, ?iPower, ?cIdle, ?cFtx, ?cBurst, ?cTxen, ?cWait, ?dRxen, ?dCfg, ?dWait, ?dLen, ?dFifo,
    ?dReport, ?dIdle, ?dFrx, ?pWr, ?pRd, ?pStb⟩ <;> intro h
  case iTable =>
    refine ⟨fun e he => hinstr h (by decide) (by simp [phaseInstr, h, he]), fun hti => ?_⟩
    exact step_of_no_script hr (hbusy h (by decide)) (by simp [phaseScript, h, List.getElem?_eq_none hti])
  case cWait | dWait | dReport =>
    exact step_of_single hr (hbusy h (by decide)) (by simp [phaseScript, h, delayCycle, delayListen]) rfl
  case dFrx =>
    refine ⟨fun i hu hlen hi => stepRunsTheReceivedPacket s i hr h hu hlen hi, fun hno => ?_⟩
    exact step_of_phaseInstr hr (packetInstr_of_no_packet hno) (by simp [phaseInstr, h])
  case pStb =>
    refine ⟨fun k hk => hinstr h (by decide) ?_, fun hpa => ?_⟩
    · simp [phaseInstr, h, hk, strobeOfSelector_strobeSelector]
    · exact step_of_no_script hr (hbusy h (by decide)) (by simp [phaseScript, h, strobeOfSelector_of_gt hpa])
  all_goals exact hinstr h (by decide) (by simp [phaseInstr, h, readId])

/-! ### The event of a position -/

/-- Without an answer the block waits at its event (R140). -/
theorem step_unanswered {s : State} {e : Event} (hr : s.resetPin = false) (he : nextEvent s = some e)
    (hn : needsAnswer e = true) (ha : s.answers = []) : step s = .next s := by
  rw [step_busy hr (isBusy_of_nextEvent he), emitAt_of_event he, emitEvent_wait hn ha]

/-- Settles O28: a busy block emits the event of its script, whose three outcomes short of a failure are these. -/
theorem busyStepEmitsTheEventOfItsPosition : Obligations.BusyStepEmitsTheEventOfItsPosition := by
  intro s e hr he
  have hb : isBusy s = true := isBusy_of_nextEvent he
  refine ⟨fun hn y rest ha => step_answeredOk hr hb he (.inl ⟨hn, ha⟩), fun hn => ?_,
    step_unanswered hr he⟩
  rw [step_answeredOk hr hb he (.inr ⟨hn, rfl, rfl⟩)]
  cases e with
  | delay | reportOversize => rfl
  | sel | desel | rdy | tx | rx => cases hn

/-- Settles O30: the halted block answers the fault, and the reset input is looked at first. -/
theorem haltedBlockTakesNoStep : Obligations.HaltedBlockTakesNoStep := fun _ hhalt =>
  ⟨fun hr => step_halted hr hhalt, fun hr => ⟨_, step_reset hr, rfl⟩⟩

/-- Settles O31: every field of `hardwareReset` is that of the reset state, but for the ports and the trace. -/
theorem hardwareResetGivesResetValues : Obligations.HardwareResetGivesResetValues := fun _ hr =>
  ⟨_, step_reset hr, rfl, rfl, rfl, rfl, rfl, rfl, rfl, rfl, rfl, rfl, rfl, rfl, rfl, rfl, rfl, rfl, rfl, rfl, rfl,
    rfl⟩

/-! ### The numbers that the host sees -/

/-- Eight bits set side by side, bit 7 first, are the bits of the byte. -/
theorem getLsbD_ofBool_append (b7 b6 b5 b4 b3 b2 b1 b0 : Bool) (i : Fin 8) :
    (BitVec.ofBool b7 ++ BitVec.ofBool b6 ++ BitVec.ofBool b5 ++ BitVec.ofBool b4 ++ BitVec.ofBool b3 ++
      BitVec.ofBool b2 ++ BitVec.ofBool b1 ++ BitVec.ofBool b0).getLsbD i =
    [b0, b1, b2, b3, b4, b5, b6, b7][i] := by
  simp only [BitVec.getLsbD_append, BitVec.getLsbD_ofBool]
  fin_cases i <;> simp

/-- The three fields of the response word (R98). -/
theorem Response.word_fields (r : Response) :
    r.word.extractLsb 19 16 = r.status.code ∧ r.word.extractLsb 15 8 = r.d1 ∧ r.word.extractLsb 7 0 = r.d0 :=
  ⟨(BitVec.extractLsb'_append_eq_of_le (by decide)).trans BitVec.extractLsb'_append_eq_left,
    (BitVec.extractLsb'_append_eq_of_le (by decide)).trans BitVec.extractLsb'_append_eq_right,
    BitVec.extractLsb'_append_eq_right⟩

/-- Settles O33: the bits of STATUS one by one, and the closed code tables. -/
theorem statusVectorBits : Obligations.StatusVectorBits := by
  refine ⟨fun s => ?_, rfl, rfl, rfl, rfl, rfl, rfl, rfl, rfl, rfl, Response.word_fields⟩
  have hbit := getLsbD_ofBool_append false s.rspValid s.cs s.ovs s.inited s.addrValid (isHalted s) (isBusy s)
  exact ⟨hbit 0, hbit 1, hbit 2, hbit 3, hbit 4, hbit 5, hbit 6, hbit 7, isBusy_iff, isHalted_iff⟩

end Sys2Proof.Machine
end

section
/-! The phase tables of CMD (R187), DISC (R216, R217, R220) and of the one-phase operations (R133, R136, R153). -/

namespace Sys2Proof.Machine

/-- Settles O36: one equation for each cell of the table; the burst's bytes are those of the frame. -/
theorem commandPhaseTable : Obligations.CommandPhaseTable := fun _ =>
  ⟨fun h => ⟨phaseScript_cIdle h, completePhase_cIdle h⟩, fun h => ⟨phaseScript_cFtx h, completePhase_cFtx h⟩,
    fun h => ⟨phaseScript_cBurst h, completePhase_cBurst h⟩, fun h => ⟨phaseScript_cTxen h, completePhase_cTxen h⟩,
    fun h => ⟨phaseScript_cWait h, completePhase_cWait_next h, completePhase_cWait_last h⟩⟩

/-! ### DISC -/

section
variable {s : State}

theorem phaseScript_dRxen (h : s.ph = .dRxen) : phaseScript s = strobeScript (Config.stbCode .rxEnable) := by
  simp [phaseScript, h]

theorem completePhase_dRxen (h : s.ph = .dRxen) :
    completePhase s = { s with ds := .listening, ph := .dCfg, u := 0 } := by
  simp [completePhase, h, finishDRxen, enterPhase]

theorem phaseScript_dCfg (h : s.ph = .dCfg) :
    phaseScript s = writeScript Config.pktrdy.reg Config.pktrdy.val := by
  simp [phaseScript, h]

theorem completePhase_dCfg (h : s.ph = .dCfg) : completePhase s = { s with ph := .dWait, u := 0 } := by
  simp [completePhase, h, enterPhase]

theorem phaseScript_dWait (h : s.ph = .dWait) : phaseScript s = [.delay delayListen] := by simp [phaseScript, h]

theorem completePhase_dWait (h : s.ph = .dWait) : completePhase s = { s with ph := .dLen, u := 0 } := by
  simp [completePhase, h, enterPhase]

theorem phaseScript_dLen (h : s.ph = .dLen) : phaseScript s = readScript (readHeader Config.rxlenReg) := by
  simp [phaseScript, h]

theorem completePhase_dLen_noData (h : s.ph = .dLen) (h0 : s.rdata = 0) :
    completePhase s = { s with len := s.rdata, ph := .dIdle, u := 0 } := by
  simp [completePhase, h, finishDLen, h0, enterPhase]

theorem completePhase_dLen_oversize (h : s.ph = .dLen) (h8 : 8 < s.rdata.toNat) :
    completePhase s = { s with len := s.rdata, ph := .dReport, u := 0 } := by
  have hzero : s.rdata.toNat ≠ 0 := by omega
  have hover : maxPkt < s.rdata.toNat := h8
  simp only [completePhase, h, finishDLen, if_neg hzero, if_pos hover, enterPhase]

theorem completePhase_dLen_packet (h : s.ph = .dLen) (h1 : 1 ≤ s.rdata.toNat) (h8 : s.rdata.toNat ≤ 8) :
    completePhase s = { s with len := s.rdata, bi := 0, ds := .pending, ph := .dFifo, u := 0 } := by
  have hzero : s.rdata.toNat ≠ 0 := by omega
  have hfits : ¬ maxPkt < s.rdata.toNat := Nat.not_lt.2 h8
  simp only [completePhase, h, finishDLen, if_neg hzero, if_neg hfits, enterPhase]

theorem phaseScript_dFifo (h : s.ph = .dFifo) : phaseScript s = readScript (readHeader Config.fifoReg) := by
  simp [phaseScript, h]

theorem completePhase_dFifo_next (h : s.ph = .dFifo) (hbi : s.bi.toNat + 1 < s.len.toNat) :
    completePhase s = { s with
      buf := Memory.write s.buf s.bi.toNat s.rdata, bi := s.bi + 1, ph := .dFifo, u := 0 } := by
  simp [completePhase, h, finishDFifo, hbi, enterPhase]

theorem completePhase_dFifo_last (h : s.ph = .dFifo) (hbi : s.len.toNat ≤ s.bi.toNat + 1) :
    completePhase s = { s with buf := Memory.write s.buf s.bi.toNat s.rdata, ph := .dIdle, u := 0 } := by
  simp [completePhase, h, finishDFifo, Nat.not_lt.2 hbi, enterPhase]

/-- Both ends of `D_FIFO` write the byte read to `BUF[BI]` (R23). -/
theorem completePhase_dFifo_buf (h : s.ph = .dFifo) :
    (completePhase s).buf = Memory.write s.buf s.bi.toNat s.rdata := by
  obtain hbi | hbi := Nat.lt_or_ge (s.bi.toNat + 1) s.len.toNat
  · rw [completePhase_dFifo_next h hbi]
  · rw [completePhase_dFifo_last h hbi]

theorem phaseScript_dReport (h : s.ph = .dReport) : phaseScript s = [.reportOversize s.len] := by
  simp [phaseScript, h]

theorem completePhase_dReport (h : s.ph = .dReport) :
    completePhase s = { s with ovs := true, ph := .dIdle, u := 0 } := by
  simp [completePhase, h, finishDReport, enterPhase]

theorem phaseScript_dIdle (h : s.ph = .dIdle) : phaseScript s = strobeScript (Config.stbCode .idle) := by
  simp [phaseScript, h]

theorem completePhase_dIdle (h : s.ph = .dIdle) : completePhase s = { s with ph := .dFrx, u := 0 } := by
  simp [completePhase, h, enterPhase]

theorem phaseScript_dFrx (h : s.ph = .dFrx) : phaseScript s = strobeScript (Config.stbCode .flushRx) := by
  simp [phaseScript, h]

end

/-- Settles O37: one equation for each cell of the table; the buffer by what a write does to a read. -/
theorem discoveryPhaseTable : Obligations.DiscoveryPhaseTable := by
  refine fun s => ⟨fun h => ⟨phaseScript_dRxen h, completePhase_dRxen h⟩,
    fun h => ⟨phaseScript_dCfg h, completePhase_dCfg h⟩, fun h => ⟨phaseScript_dWait h, completePhase_dWait h⟩,
    fun h => ⟨phaseScript_dLen h, completePhase_dLen_noData h, completePhase_dLen_oversize h,
      completePhase_dLen_packet h⟩,
    fun h => ⟨phaseScript_dFifo h, ?_, fun i hi => ?_, fun hbi => ?_, fun hbi => ?_⟩,
    fun h => ⟨phaseScript_dReport h, completePhase_dReport h⟩,
    fun h => ⟨phaseScript_dIdle h, completePhase_dIdle h⟩, phaseScript_dFrx⟩
  · rw [completePhase_dFifo_buf h, Memory.read_write_same]
  · rw [completePhase_dFifo_buf h, Memory.read_write_ne _ _ hi]
  · rw [completePhase_dFifo_buf h, completePhase_dFifo_next h hbi]
  · rw [completePhase_dFifo_buf h, completePhase_dFifo_last h hbi]

/-! ### The end of an iteration (R216, R217) -/

theorem finishDFrx_of_match {s : State} {hi lo : Byte} (hv : verdict s.len s.buf = .matched hi lo) :
    finishDFrx s = acceptAddress hi lo s := by
  simp [finishDFrx, hv]

/-- Every verdict but a match goes back to the loop with its own code (R217, R219). -/
theorem finishDFrx_of_no_match {s : State} (hv : ∀ hi lo, verdict s.len s.buf ≠ .matched hi lo) :
    finishDFrx s = loopBack (verdict s.len s.buf).last s := by
  unfold finishDFrx
  cases h : verdict s.len s.buf with
  | matched hi lo => exact absurd h (hv hi lo)
  | noData | oversize | allSync | mismatch => rfl

theorem limitReached_iff (it : Nat) :
    limitReached it = true ↔ ∃ limit, Config.discLimit = some limit ∧ limit.val ≤ it + 1 := by
  unfold limitReached
  cases Config.discLimit <;> simp

theorem loopBack_of_limit {s : State} (v : LastVerdict)
    (h : ∃ limit, Config.discLimit = some limit ∧ limit.val ≤ s.it + 1) :
    loopBack v s = complete .discExhausted 0 0 { s with lastv := v, ds := .idle, it := s.it + 1 } :=
  if_pos ((limitReached_iff s.it).2 h)

theorem loopBack_of_no_limit {s : State} (v : LastVerdict)
    (h : ∀ limit, Config.discLimit = some limit → s.it + 1 < limit.val) :
    loopBack v s = enterPhase .dRxen { s with lastv := v, ds := .idle, it := s.it + 1 } := by
  refine if_neg fun hl => ?_
  obtain ⟨limit, hlimit, hle⟩ := (limitReached_iff s.it).1 hl
  exact Nat.not_lt.2 hle (h limit hlimit)

/-- Settles O38: a match, or the loop with `DISC_LIMIT` reached or not. -/
theorem discoveryIterationEnds : Obligations.DiscoveryIterationEnds := by
  intro s hph
  rw [completePhase_dFrx hph]
  refine ⟨fun hi lo hv => finishDFrx_of_match hv, fun hv => ?_⟩
  rw [finishDFrx_of_no_match hv]
  exact ⟨loopBack_of_limit _, loopBack_of_no_limit _⟩

/-! ### WREG, RREG and STB -/

section
variable {s : State}

theorem phaseScript_pWr (h : s.ph = .pWr) : phaseScript s = writeScript s.pa s.pb := by simp [phaseScript, h]

theorem completePhase_pWr (h : s.ph = .pWr) : completePhase s = { s with
      rsp := { status := .ok, d1 := 0, d0 := 0 }, rspValid := true, ph := .idle, u := 0, op := .none } := by
  simp [completePhase, h, finishPWr, complete]

theorem phaseScript_pRd (h : s.ph = .pRd) : phaseScript s = readScript (readHeader s.pa) := by simp [phaseScript, h]

theorem completePhase_pRd (h : s.ph = .pRd) : completePhase s = { s with
      rsp := { status := .ok, d1 := 0, d0 := s.rdata }, rspValid := true, ph := .idle, u := 0, op := .none } := by
  simp [completePhase, h, finishPRd, complete]

theorem phaseScript_pStb {k : Strobe} (h : s.ph = .pStb) (hk : s.pa = strobeSelector k) :
    phaseScript s = strobeScript (Config.stbCode k) := by
  simp [phaseScript, h, hk, strobeOfSelector_strobeSelector]

theorem completePhase_pStb (h : s.ph = .pStb) : completePhase s = { s with
      rsp := { status := .ok, d1 := 0, d0 := 0 }, rspValid := true, ph := .idle, u := 0, op := .none } := by
  simp [completePhase, h, finishPStb, complete]

end

/-- Settles O39: one equation for each phase's script and one for its completion. -/
theorem primitiveOperationsEnd : Obligations.PrimitiveOperationsEnd := fun _ =>
  ⟨fun h => ⟨phaseScript_pWr h, completePhase_pWr h⟩, fun h => ⟨phaseScript_pRd h, completePhase_pRd h⟩,
    fun h => ⟨fun _ hk => phaseScript_pStb h hk, completePhase_pStb h⟩⟩

end Sys2Proof.Machine
end

section
/-! Runs of the one-phase operations from their word to their response (R131 to R136, R151 to R153). -/

namespace Sys2Proof.Machine

/-- Settles O40: `run_phase`, with the state before the completion written out. -/
theorem phaseRunsItsScript : Obligations.PhaseRunsItsScript := fun _ _ _ hr hb hu hne hlen ha =>
  ⟨_, run_phase hr hb hu hne hlen ha, rfl⟩

theorem exec_strobeInstr (k : Strobe) (s : State) : exec (strobeInstr k) s = acceptStrobe k s := by
  cases k <;> rfl

/-- The rows of R96 are those of `strobeInstr`. -/
theorem eq_strobeInstr_of_mem {k : Strobe} {i : Instr}
    (h : (k, i) ∈ [(Strobe.idle, Instr.stbIdle), (.txEnable, .stbTxen), (.flushTx, .stbFtx), (.reset, .stbReset),
      (.rxEnable, .stbRxen), (.flushRx, .stbFrx)]) : i = strobeInstr k := by
  simp only [List.mem_cons, Prod.mk.injEq, List.not_mem_nil, or_false] at h
  obtain ⟨rfl, rfl⟩ | ⟨rfl, rfl⟩ | ⟨rfl, rfl⟩ | ⟨rfl, rfl⟩ | ⟨rfl, rfl⟩ | ⟨rfl, rfl⟩ := h <;> rfl

section
variable {s : State} (hr : s.resetPin = false) (hu : s.u = 0)
include hr hu

theorem replays_pWr (hph : s.ph = .pWr) : Replays (writeScript s.pa s.pb) s { s with
    rsp := { status := .ok, d1 := 0, d0 := 0 }, rspValid := true, ph := .idle, u := 0, op := .none, cs := false } :=
  .phase hr (by simp [isBusy_iff, hph]) hu (phaseScript_pWr hph) (.write _ _) (rx_not_mem_writeScript _ _)
    fun _ => completePhase_pWr hph

theorem replays_pStb {k : Strobe} (hph : s.ph = .pStb) (hk : s.pa = strobeSelector k) :
    Replays (strobeScript (Config.stbCode k)) s { s with
      rsp := { status := .ok, d1 := 0, d0 := 0 }, rspValid := true, ph := .idle, u := 0, op := .none, cs := false } :=
  .phase hr (by simp [isBusy_iff, hph]) hu (phaseScript_pStb hph hk) (.strobe _) (rx_not_mem_strobeScript _)
    fun _ => completePhase_pStb hph

end

/-- Settles O41: the word is accepted, then the one phase replays its script and completes. -/
theorem wregRunsItsTransaction : Obligations.WregRunsItsTransaction := by
  intro s a v w words ys rest hr hph hw ho hlen ha
  have hstep : step s = .next (beginOperation .wreg .pWr { s with offers := words, pa := a, pb := v }) :=
    (stepRunsTheDecodedWord s w words _ hr hph ho hw).trans (exec_wreg_of_idle a v hph)
  have hrun := replays_pWr (s := beginOperation .wreg .pWr { s with offers := words, pa := a, pb := v }) hr rfl rfl
    ys rest s.trace hlen
  rw [← ha] at hrun
  rw [run_succ_of_step (k := 6) hstep, hph]
  exact hrun

/-- Settles O43: the same for each strobe, whose selector `PA` holds. -/
theorem stbSendsItsStrobe : Obligations.StbSendsItsStrobe := by
  intro s k i w words ys rest hmem hr hph hw ho hlen ha
  obtain rfl := eq_strobeInstr_of_mem hmem
  have hstep : step s = .next (beginOperation .stb .pStb { s with offers := words, pa := strobeSelector k }) := by
    rw [stepRunsTheDecodedWord s w words _ hr hph ho hw, exec_strobeInstr]
    exact acceptStrobe_of_idle k hph
  have hrun := replays_pStb (s := beginOperation .stb .pStb { s with offers := words, pa := strobeSelector k }) hr rfl
    rfl rfl ys rest s.trace hlen
  rw [← ha] at hrun
  rw [run_succ_of_step (k := 5) hstep, hph]
  exact hrun

/-- Settles O42: the five answers of the read script, the fourth of which is the byte delivered. -/
theorem rregReturnsTheByteRead : Obligations.RregReturnsTheByteRead := by
  intro s a y y0 y1 y2 y4 w words rest hr hph hw ho ha
  have hstep : step s = .next (beginOperation .rreg .pRd { s with offers := words, pa := a }) :=
    (stepRunsTheDecodedWord s w words _ hr hph ho hw).trans (exec_rreg_of_idle a hph)
  have hrun := run_phase (s := beginOperation .rreg .pRd { s with offers := words, pa := a })
    (ys := [y0, y1, y2, y, y4]) (rest := rest) hr rfl rfl nofun rfl ha
  rw [completePhase_pRd rfl] at hrun
  rw [run_succ_of_step (k := 5) hstep, hph]
  exact hrun

end Sys2Proof.Machine
end

section
/-! Where a step writes the flags, the discovery state and the halt registers (R33 to R39, R218, R219): of an answered
event only the one that completes a phase writes more than `CS` and `RDATA`. -/

namespace Sys2Proof.Machine

/-! ### What the completions write -/

section
variable (s : State)

/-- What the completion of `D_FRX` can do: store the Address, end the DISC at its limit, or start over (R216, R217). -/
theorem finishDFrx_cases :
    (∃ hi lo, verdict s.len s.buf = .matched hi lo ∧ finishDFrx s = acceptAddress hi lo s) ∨
    ((∀ hi lo, verdict s.len s.buf ≠ .matched hi lo) ∧
      (finishDFrx s = complete .discExhausted 0 0
          { s with lastv := (verdict s.len s.buf).last, ds := .idle, it := s.it + 1 } ∨
        finishDFrx s = enterPhase .dRxen
          { s with lastv := (verdict s.len s.buf).last, ds := .idle, it := s.it + 1 })) := by
  by_cases hmatch : ∃ hi lo, verdict s.len s.buf = .matched hi lo
  · obtain ⟨hi, lo, hv⟩ := hmatch
    exact .inl ⟨hi, lo, hv, finishDFrx_of_match hv⟩
  · have hno : ∀ hi lo, verdict s.len s.buf ≠ .matched hi lo := fun hi lo hv => hmatch ⟨hi, lo, hv⟩
    exact .inr ⟨hno, finishDFrx_of_no_match hno ▸ ite_eq_or_eq _ _ _⟩

/-- `OVS` is set where `D_REPORT` completes, `INITED` where `I_POWER` does, and neither anywhere else (R34, R35). -/
theorem completePhase_flags :
    (completePhase s).ovs = (s.ovs || decide (s.ph = .dReport)) ∧
      (completePhase s).inited = (s.inited || decide (s.ph = .iPower)) := by
  cases hph : s.ph <;> simp only [completePhase, hph]
  case dFrx => obtain ⟨_, _, -, h⟩ | ⟨-, h | h⟩ := finishDFrx_cases s <;> simp [h, acceptAddress]
  all_goals simp [finishIReset, finishITable, finishIPower, finishCWait, finishDRxen, finishDLen, finishDFifo,
    finishDReport, finishPWr, finishPRd, finishPStb, apply_ite State.ovs, apply_ite State.inited]

/-- No completion halts (R37). -/
theorem completePhase_ph_ne_halt (hhalt : s.ph ≠ .halt) : (completePhase s).ph ≠ .halt := by
  cases hph : s.ph <;> simp only [completePhase, hph]
  case halt => exact absurd hph hhalt
  case dFrx => obtain ⟨_, _, -, h⟩ | ⟨-, h | h⟩ := finishDFrx_cases s <;> simp [h, acceptAddress]
  case dLen =>
    unfold finishDLen
    split
    · simp
    · split <;> simp
  case iReset | iTable | cWait | dFifo =>
    simp only [finishIReset, finishITable, finishCWait, finishDFifo]
    split <;> simp
  all_goals simp [finishIPower, finishDRxen, finishDReport, finishPWr, finishPRd, finishPStb, hph]

/-- `LASTV` is written where `D_FRX` completes (R219). -/
theorem completePhase_lastv :
    (completePhase s).lastv = s.lastv ∨
      (s.ph = .dFrx ∧ (completePhase s).lastv = (verdict s.len s.buf).last) := by
  by_cases hph : s.ph = .dFrx
  · rw [completePhase_dFrx hph]
    refine .inr ⟨hph, ?_⟩
    obtain ⟨_, _, hv, h⟩ | ⟨-, h | h⟩ := finishDFrx_cases s <;> rw [h]
    · rw [hv]
      rfl
    · rfl
    · rfl
  · refine .inl ?_
    cases hph' : s.ph <;> simp only [completePhase, hph']
    case dFrx => exact absurd hph' hph
    all_goals simp [finishIReset, finishITable, finishIPower, finishCWait, finishDRxen, finishDLen, finishDFifo,
      finishDReport, finishPWr, finishPRd, finishPStb, apply_ite State.lastv]

/-- The moves of `DS` where a phase completes (R218). -/
theorem completePhase_ds :
    (completePhase s).ds = s.ds ∨
      ((completePhase s).ds = .listening ∧ s.ph = .dRxen ∧ (completePhase s).ph = .dCfg) ∨
      ((completePhase s).ds = .pending ∧ s.ph = .dLen ∧ (completePhase s).ph = .dFifo ∧
        1 ≤ (completePhase s).len.toNat ∧ (completePhase s).len.toNat ≤ 8) ∨
      ((completePhase s).ds = .validated ∧ s.ph = .dFrx ∧ ∃ hi lo, verdict s.len s.buf = .matched hi lo) ∨
      ((completePhase s).ds = .idle ∧ s.ph = .dFrx ∧ ∀ hi lo, verdict s.len s.buf ≠ .matched hi lo) := by
  cases hph : s.ph
  case dRxen =>
    rw [completePhase_dRxen hph]
    exact .inr (.inl ⟨rfl, rfl, rfl⟩)
  case dLen =>
    obtain h0 | h1 := Nat.eq_zero_or_pos s.rdata.toNat
    · rw [completePhase_dLen_noData hph (BitVec.eq_of_toNat_eq h0)]
      exact .inl rfl
    · obtain h8 | h8 := Nat.lt_or_ge 8 s.rdata.toNat
      · rw [completePhase_dLen_oversize hph h8]
        exact .inl rfl
      · rw [completePhase_dLen_packet hph h1 h8]
        exact .inr (.inr (.inl ⟨rfl, rfl, rfl, h1, h8⟩))
  case dFrx =>
    rw [completePhase_dFrx hph]
    obtain ⟨hi, lo, hv, h⟩ | ⟨hno, h | h⟩ := finishDFrx_cases s <;> rw [h]
    · exact .inr (.inr (.inr (.inl ⟨rfl, rfl, hi, lo, hv⟩)))
    · exact .inr (.inr (.inr (.inr ⟨rfl, rfl, hno⟩)))
    · exact .inr (.inr (.inr (.inr ⟨rfl, rfl, hno⟩)))
  all_goals
    refine .inl ?_
    simp [completePhase, hph, finishIReset, finishITable, finishIPower, finishCWait, finishDFifo, finishDReport,
      finishPWr, finishPRd, finishPStb, apply_ite State.ds]

end

/-! ### Inside a phase and at its end -/

/-- An answered event is one inside its phase, where only `U` moves beside the event's own effects, or the last one of
its phase, which completes. -/
theorem emitted_cases {s : State} {e : Event} (y : Byte) (rest : List Answer) (hb : isBusy s = true)
    (he : nextEvent s = some e) :
    (s.u.toNat + 1 < phaseLength s.ph ∧
      moveOn (phaseScript s) completePhase (eventOk e y (withAnswers rest s)) = nextMicroStep e y rest s) ∨
    (s.u.toNat + 1 = phaseLength s.ph ∧
      moveOn (phaseScript s) completePhase (eventOk e y (withAnswers rest s)) =
        completePhase (eventOk e y (withAnswers rest s))) := by
  obtain ⟨hlt, -⟩ := List.getElem?_eq_some_iff.1 he
  rw [← phaseScript_length hb he]
  by_cases hin : s.u.toNat + 1 < (phaseScript s).length
  · exact .inl ⟨hin, moveOn_eventOk_inside e y rest s hin⟩
  · exact .inr ⟨by omega, moveOn_last (Nat.not_lt.1 hin)⟩

/-- The position of the last micro-step of a phase with `k + 1` of them. -/
theorem u_eq_of_last {s : State} {p : Phase} {k : BitVec 4} (hlast : s.u.toNat + 1 = phaseLength s.ph)
    (hph : s.ph = p) (hlen : phaseLength p = k.toNat + 1 := by rfl) : s.u = k := by
  rw [hph, hlen] at hlast
  exact BitVec.eq_of_toNat_eq (Nat.succ_injective hlast)

/-- The report of an oversize length takes no answer (R251). -/
theorem needsAnswer_of_dReport {s : State} {e : Event} (hph : s.ph = .dReport) (he : nextEvent s = some e) :
    needsAnswer e = false := by
  have hmem : e ∈ [Event.reportOversize s.len] := phaseScript_dReport hph ▸ List.mem_of_getElem? he
  rw [List.mem_singleton.1 hmem]
  rfl

/-! ### The statements -/

/-- `OVS` and `INITED` after an answered event. -/
theorem emitted_flags {s : State} {e : Event} (y : Byte) (rest : List Answer) (hb : isBusy s = true)
    (he : nextEvent s = some e) {t : State}
    (ht : t = moveOn (phaseScript s) completePhase (eventOk e y (withAnswers rest s))) :
    t.ovs = (s.ovs || decide (s.ph = .dReport ∧ s.u = 0)) ∧
      (t.inited = s.inited ∨ (t.inited = true ∧ s.ph = .iPower ∧ s.u = 5)) := by
  obtain ⟨hin, hmove⟩ | ⟨hlast, hmove⟩ := emitted_cases y rest hb he <;> rw [ht, hmove]
  · have hnot : ¬ (s.ph = .dReport ∧ s.u = 0) := by
      rintro ⟨hph, hu⟩
      rw [hph, hu] at hin
      exact absurd hin (by decide)
    rw [decide_eq_false hnot, Bool.or_false]
    exact ⟨rfl, .inl rfl⟩
  · obtain ⟨hovs, hinited⟩ := completePhase_flags (eventOk e y (withAnswers rest s))
    refine ⟨hovs.trans ?_, ?_⟩
    · have hu : s.ph = .dReport → s.u = 0 := fun hph => u_eq_of_last hlast hph
      exact congrArg (s.ovs || ·) (decide_eq_decide.2 (and_iff_left_of_imp hu).symm)
    · by_cases hph : s.ph = .iPower
      · exact .inr ⟨hinited.trans (by simp [eventOk, hph]), hph, u_eq_of_last hlast hph⟩
      · exact .inl (hinited.trans (by simp [eventOk, hph]))

/-- Of the Accept steps only that of INIT writes a flag (R34). -/
theorem Accepted.flags {s t : State} {i : Instr} (h : Accepted s i t) :
    t.ovs = s.ovs ∧ (t.inited = s.inited ∨ (t.inited = false ∧ i = .init)) := by
  cases h with
  | init => exact ⟨rfl, .inr ⟨rfl, rfl⟩⟩
  | command | violation | disc | seta | wreg | rreg | strobe => exact ⟨rfl, .inl rfl⟩

/-- Settles O57: an idle block writes `INITED` when it accepts INIT, and a busy one the flags of the phase that
completes. -/
theorem flagsFollowTheirRules : Obligations.FlagsFollowTheirRules := by
  intro s t hr h
  have hovs_idle (hi : s.ph = .idle) : s.ovs = (s.ovs || decide (s.ph = .dReport ∧ s.u = 0)) := by simp [hi]
  have hovs_answer {e : Event} (he : nextEvent s = some e) (hn : needsAnswer e = true) :
      s.ovs = (s.ovs || decide (s.ph = .dReport ∧ s.u = 0)) := by
    have hph : s.ph ≠ .dReport := fun hph => by simp [needsAnswer_of_dReport hph he] at hn
    simp [hph]
  cases step_next h with
  | reset hr' => simp [hr] at hr'
  | noWord _ hi | illegal _ hi => exact ⟨hovs_idle hi, .inl rfl⟩
  | unanswered _ _ he hn | failed _ _ he hn => exact ⟨hovs_answer he hn, .inl rfl⟩
  | accept _ hi ho hw ha =>
    obtain ⟨hovs, hinited | ⟨hinited, rfl⟩⟩ := ha.flags
    · exact ⟨hovs.trans (hovs_idle hi), .inl hinited⟩
    · exact ⟨hovs.trans (hovs_idle hi), .inr (.inl ⟨hinited, hi, _, _, ho, hw⟩)⟩
  | emitted _ hb he =>
    obtain ⟨hovs, hinited⟩ := emitted_flags _ _ hb he rfl
    exact ⟨hovs, hinited.imp_right .inr⟩

/-- Of the Accept steps only that of DISC writes `DS`, and none writes `LASTV` (R218, R219). -/
theorem Accepted.discovery {s t : State} {i : Instr} (h : Accepted s i t) :
    (t.ds = s.ds ∨ (t.ds = .idle ∧ i = .disc)) ∧ t.lastv = s.lastv := by
  cases h with
  | disc => exact ⟨.inr ⟨rfl, rfl⟩, rfl⟩
  | init | command | violation | seta | wreg | rreg | strobe => exact ⟨.inl rfl, rfl⟩

/-- Where an answered event completes a phase with five micro-steps, it is the one of index 4. -/
theorem emitted_discovery {s : State} {e : Event} (y : Byte) (rest : List Answer) (hb : isBusy s = true)
    (he : nextEvent s = some e) {t : State}
    (ht : t = moveOn (phaseScript s) completePhase (eventOk e y (withAnswers rest s))) :
    (t.ds = s.ds ∨
      (t.ds = .listening ∧ s.ph = .dRxen ∧ s.u = 4 ∧ t.ph = .dCfg) ∨
      (t.ds = .pending ∧ s.ph = .dLen ∧ s.u = 4 ∧ t.ph = .dFifo ∧ 1 ≤ t.len.toNat ∧ t.len.toNat ≤ 8) ∨
      (t.ds = .validated ∧ s.ph = .dFrx ∧ s.u = 4 ∧ ∃ hi lo, verdict s.len s.buf = .matched hi lo) ∨
      (t.ds = .idle ∧ s.ph = .dFrx ∧ s.u = 4 ∧ ∀ hi lo, verdict s.len s.buf ≠ .matched hi lo)) ∧
    (t.lastv = s.lastv ∨ (s.ph = .dFrx ∧ s.u = 4 ∧ t.lastv = (verdict s.len s.buf).last)) := by
  obtain ⟨-, hmove⟩ | ⟨hlast, hmove⟩ := emitted_cases y rest hb he <;> rw [ht, hmove]
  · exact ⟨.inl rfl, .inl rfl⟩
  have hu {p : Phase} (hph : s.ph = p) (hlen : phaseLength p = (4 : BitVec 4).toNat + 1 := by rfl) : s.u = 4 :=
    u_eq_of_last hlast hph hlen
  refine ⟨?_, (completePhase_lastv (eventOk e y (withAnswers rest s))).imp_right fun ⟨hph, h⟩ => ⟨hph, hu hph, h⟩⟩
  obtain hds | ⟨hds, hph, h⟩ | ⟨hds, hph, h⟩ | ⟨hds, hph, h⟩ | ⟨hds, hph, h⟩ :=
    completePhase_ds (eventOk e y (withAnswers rest s))
  · exact .inl hds
  · exact .inr (.inl ⟨hds, hph, hu hph, h⟩)
  · exact .inr (.inr (.inl ⟨hds, hph, hu hph, h⟩))
  · exact .inr (.inr (.inr (.inl ⟨hds, hph, hu hph, h⟩)))
  · exact .inr (.inr (.inr (.inr ⟨hds, hph, hu hph, h⟩)))

/-- Settles O58: an idle block writes `DS` when it accepts DISC, and a busy one what the phase that completes writes, at
the last micro-step of that phase. -/
theorem discoveryStateMovesAsStated : Obligations.DiscoveryStateMovesAsStated := by
  intro s t hr h
  cases step_next h with
  | reset hr' => simp [hr] at hr'
  | noWord | illegal | unanswered | failed => exact ⟨.inl rfl, .inl rfl⟩
  | accept _ hi ho hw ha =>
    obtain ⟨hds | ⟨hds, rfl⟩, hlastv⟩ := ha.discovery
    · exact ⟨.inl hds, .inl hlastv⟩
    · exact ⟨.inr (.inl ⟨hds, hi, _, _, ho, hw⟩), .inl hlastv⟩
  | emitted _ hb he =>
    obtain ⟨hds, hlastv⟩ := emitted_discovery _ _ hb he rfl
    exact ⟨hds.imp_right .inr, hlastv⟩

/-- Settles O59: a failed event and a CMD without an Address halt with their positions; nothing else writes the halt
registers or enters `PH_HALT`. -/
theorem causeIsWrittenOnlyOnHalt : Obligations.CauseIsWrittenOnlyOnHalt := by
  intro s t hr h
  cases step_next h with
  | reset hr' => simp [hr] at hr'
  | noWord _ hi | illegal _ hi => exact .inl ⟨rfl, rfl, rfl, fun hhalt => absurd (hi.symm.trans hhalt) nofun⟩
  | unanswered _ hb => exact .inl ⟨rfl, rfl, rfl, (isBusy_iff.1 hb).2⟩
  | failed => exact .inr (.inl ⟨rfl, rfl, rfl, rfl⟩)
  | accept _ hi _ _ ha =>
    cases ha with
    | violation c hv => exact .inr (.inr ⟨rfl, rfl, rfl, rfl, hi, hv⟩)
    | init | command | disc | seta | wreg | rreg | strobe => exact .inl ⟨rfl, rfl, rfl, nofun⟩
  | @emitted e y rest _ hb he =>
    have hhalt := (isBusy_iff.1 hb).2
    obtain ⟨-, hmove⟩ | ⟨-, hmove⟩ := emitted_cases y rest hb he <;> rw [hmove]
    · exact .inl ⟨rfl, rfl, rfl, hhalt⟩
    · exact .inl ⟨completePhase_cause _, completePhase_fph _, completePhase_fu _, completePhase_ph_ne_halt _ hhalt⟩

/-! ### The command port of a busy block -/

/-- No completion looks at the words offered (R33). -/
theorem completePhase_offers_update (s : State) (offers : List HostWord) :
    completePhase { s with offers := offers } = { completePhase s with offers := offers } := by
  rw [completePhase_untouched s]
  exact completePhase_withUntouched offers s.cs s.cause s.fph s.fu s

theorem moveOn_offers_update (script : List Event) (s : State) (offers : List HostWord) :
    moveOn script completePhase { s with offers := offers } =
      { moveOn script completePhase s with offers := offers } := by
  by_cases hin : s.u.toNat + 1 < script.length
  · rw [moveOn_inside (s := s) hin]
    exact moveOn_inside hin
  · rw [moveOn_last (s := s) (Nat.not_lt.1 hin), ← completePhase_offers_update]
    exact moveOn_last (Nat.not_lt.1 hin)

/-- Settles O55: a busy step is decided by its position, its answers and its data registers. -/
theorem busyBlockIgnoresTheCommandPort : Obligations.BusyBlockIgnoresTheCommandPort := by
  intro s t offers hr hb h
  have hidle := (isBusy_iff.1 hb).1
  cases step_next h with
  | reset hr' => simp [hr] at hr'
  | noWord _ hi | illegal _ hi | accept _ hi => exact absurd hi hidle
  | unanswered _ _ he hn ha =>
    exact ⟨rfl, step_unanswered (s := { s with offers := offers }) hr he hn ha⟩
  | failed _ _ he hn ha => exact ⟨rfl, transportFailureHalts { s with offers := offers } _ _ hr he hn ha⟩
  | @emitted e y rest _ _ he ha =>
    have hstep := step_answeredOk (s := { s with offers := offers }) (rest := rest) hr hb he ha
    have hmove := moveOn_offers_update (phaseScript s) (eventOk e y (withAnswers rest s)) offers
    exact ⟨(moveOn_untouched _ _).1, hstep.trans (congrArg _ hmove)⟩

end Sys2Proof.Machine
end

section
/-! Runs that read from the chip. `Receives` says of a script and the two states around it what `Replays` says of one
without a read, for given bytes delivered by the `RX` events, so that the phases of an operation compose. -/

namespace Sys2Proof.Machine

/-- From `s` the block emits the script, one event a step, each answered ok, and is then in `t`, where `bytes` are what
the `RX` events deliver; the other answers' bytes, the answers after them and the trace before them do not matter. -/
structure Receives (script : List Event) (bytes : List Byte) (s t : State) : Prop where
  length_eq : bytes.length = script.count .rx
  run_eq (ys : List Byte) (rest : List Answer) (trace : List Emitted) :
    ys.length = transportEvents script → rxBytes script ys = bytes →
      core.run script.length (withRun (ys.map .ok ++ rest) trace s) =
        .next (withRun rest (trace ++ okTrace script ys) t)

theorem Replays.receives {script : List Event} {s t : State} (h : Replays script s t) (hrx : .rx ∉ script) :
    Receives script [] s t where
  length_eq := (List.count_eq_zero.2 hrx).symm
  run_eq ys rest trace hlen _ := by rw [h ys rest trace hlen, okTrace_of_no_rx hrx hlen]

/-! ### The bytes and the trace of two scripts one after the other -/

section
variable {e : Event} (more : List Event) (y : Byte) (ys : List Byte)

theorem transportEvents_cons_free (hn : needsAnswer e = false) :
    transportEvents (e :: more) = transportEvents more := by simp [transportEvents, hn]

theorem transportEvents_cons_answered (hn : needsAnswer e = true) :
    transportEvents (e :: more) = transportEvents more + 1 := by simp [transportEvents, hn]

theorem rxBytes_cons_free (hn : needsAnswer e = false) : rxBytes (e :: more) ys = rxBytes more ys := by
  simp [rxBytes, hn]

theorem rxBytes_cons_answered (hn : needsAnswer e = true) :
    rxBytes (e :: more) (y :: ys) = (if e = .rx then [y] else []) ++ rxBytes more ys := by
  rw [rxBytes, if_pos hn]
  split <;> rfl

end

/-- The transport's bytes are one for each `RX`. -/
theorem rxBytes_length {script : List Event} {ys : List Byte} (hlen : ys.length = transportEvents script) :
    (rxBytes script ys).length = script.count .rx := by
  induction script generalizing ys with
  | nil => rfl
  | cons e more ih =>
    cases hn : needsAnswer e with
    | false =>
      have hne : e ≠ .rx := fun h => by simp [h, needsAnswer] at hn
      rw [transportEvents_cons_free more hn] at hlen
      rw [rxBytes_cons_free more ys hn, ih hlen, List.count_cons_of_ne hne]
    | true =>
      rw [transportEvents_cons_answered more hn] at hlen
      obtain ⟨y, zs, rfl⟩ := List.exists_cons_of_length_eq_add_one hlen
      rw [rxBytes_cons_answered more y zs hn, List.length_append, ih (Nat.succ_injective hlen), List.count_cons,
        Nat.add_comm]
      by_cases hrx : e = .rx <;> simp [hrx]

/-- A script and its answers cut in two: each part reads its own bytes and leaves its own trace. -/
theorem rxBytes_okTrace_append (a b : List Event) {ys zs : List Byte} (hlen : ys.length = transportEvents a) :
    rxBytes (a ++ b) (ys ++ zs) = rxBytes a ys ++ rxBytes b zs ∧
      okTrace (a ++ b) (ys ++ zs) = okTrace a ys ++ okTrace b zs := by
  induction a generalizing ys with
  | nil => simp [List.eq_nil_of_length_eq_zero hlen, rxBytes, okTrace]
  | cons e more ih =>
    cases hn : needsAnswer e with
    | false =>
      rw [transportEvents_cons_free more hn] at hlen
      obtain ⟨hrx, htrace⟩ := ih hlen
      simp [rxBytes_cons_free _ _ hn, okTrace, hn, hrx, htrace]
    | true =>
      rw [transportEvents_cons_answered more hn] at hlen
      obtain ⟨y, ys, rfl⟩ := List.exists_cons_of_length_eq_add_one hlen
      obtain ⟨hrx, htrace⟩ := ih (ys := ys) (Nat.succ_injective hlen)
      simp [rxBytes_cons_answered _ _ _ hn, okTrace, hn, hrx, htrace]

theorem Receives.append {a b : List Event} {xs zs : List Byte} {s t u : State} (hab : Receives a xs s t)
    (hbc : Receives b zs t u) : Receives (a ++ b) (xs ++ zs) s u where
  length_eq := by rw [List.length_append, List.count_append, hab.length_eq, hbc.length_eq]
  run_eq ys rest trace hlen hrx := by
    rw [transportEvents_append] at hlen
    have hfirst : (ys.take (transportEvents a)).length = transportEvents a := by rw [List.length_take]; omega
    have hsecond : (ys.drop (transportEvents a)).length = transportEvents b := by rw [List.length_drop]; omega
    obtain ⟨hbytes, htrace⟩ := rxBytes_okTrace_append a b (zs := ys.drop (transportEvents a)) hfirst
    rw [List.take_append_drop] at hbytes htrace
    rw [hbytes] at hrx
    obtain ⟨hxs, hzs⟩ := List.append_inj hrx ((rxBytes_length hfirst).trans hab.length_eq.symm)
    have hruna := hab.run_eq _ ((ys.drop (transportEvents a)).map .ok ++ rest) trace hfirst hxs
    rw [← List.append_assoc, ← List.map_append, List.take_append_drop] at hruna
    rw [List.length_append, run_add_of_run hruna, hbc.run_eq _ rest _ hsecond hzs, htrace, List.append_assoc]

/-- A script without an event changes nothing. -/
theorem Receives.nil (s : State) : Receives [] [] s s where
  length_eq := rfl
  run_eq ys rest trace hlen _ := by
    rw [List.eq_nil_of_length_eq_zero hlen]
    simp [Host.Core.run, okTrace]

/-- A phase that reads a register delivers one byte, and `RDATA` holds it when the phase completes (R134, R135). -/
theorem Receives.read {s t : State} {header y : Byte} (hr : s.resetPin = false) (hb : isBusy s = true) (hu : s.u = 0)
    (hscript : phaseScript s = readScript header)
    (hdone : ∀ u, completePhase { s with u := u, cs := false, rdata := y } = t) :
    Receives (readScript header) [y] s t where
  length_eq := rfl
  run_eq ys rest trace hlen hrx := by
    rw [← hscript] at hlen hrx ⊢
    have hne : phaseScript s ≠ [] := by simp [hscript, readScript]
    have hcs : (phaseScript s).foldl (fun c e => csAfter e c) s.cs = false := by rw [hscript]; rfl
    have hrun := run_phase (s := withRun (ys.map .ok ++ rest) trace s) hr hb hu hne hlen rfl
    rw [phaseScript_withRun] at hrun
    rw [hrun, ← hdone (BitVec.ofNat 4 ((phaseScript s).length - 1)), ← completePhase_withRun]
    simp [answeredThrough, withRun, hrx, hcs]

end Sys2Proof.Machine
end

section
/-! One iteration of DISC from its first event to its end (R203 to R217): the listen set-up, the length byte, the bytes
of the FIFO or the report of an oversize length, the flush, and the verdict on what was received. -/

namespace Sys2Proof.Machine

/-! ### The bytes in the buffer -/

theorem read_fillBuffer_of_lt {i j : Nat} (h : j < i) (bytes : List Byte) (m : Memory) :
    Memory.read (fillBuffer i bytes m) j = Memory.read m j := by
  induction bytes generalizing i m with
  | nil => rfl
  | cons b more ih => rw [fillBuffer, ih (Nat.lt_add_right 1 h), Memory.read_write_ne m b h.ne]

theorem read_fillBuffer {i k : Nat} {bytes : List Byte} {b : Byte} (m : Memory) (h : bytes[k]? = some b) :
    Memory.read (fillBuffer i bytes m) (i + k) = b := by
  induction bytes generalizing i k m with
  | nil => cases h
  | cons c more ih =>
    cases k with
    | zero =>
      cases h
      exact (read_fillBuffer_of_lt (Nat.lt_add_one i) more (Memory.write m i b)).trans (Memory.read_write_same m i b)
    | succ k => exact Nat.succ_add_eq_add_succ i k ▸ ih (i := i + 1) (Memory.write m i c) h

/-- Bytes put into `BUF` from index 0 on are the bytes received. -/
theorem received_fillBuffer (bytes : List Byte) (m : Memory) :
    received (fillBuffer 0 bytes m) bytes.length = bytes := by
  refine List.ext_getElem? fun k => ?_
  rw [received_getElem?]
  split
  · next hk => rw [List.getElem?_eq_getElem hk, ← read_fillBuffer m (List.getElem?_eq_getElem hk), Nat.zero_add]
  · next hk => rw [List.getElem?_eq_none (Nat.not_lt.1 hk)]

/-! ### The scripts -/

/-- What follows the length byte `n`: the oversize report, or `n` FIFO reads (R203). -/
def payloadScript (n : Byte) : List Event :=
  if maxPkt < n.toNat then [.reportOversize n] else getPktScript n.toNat

theorem iterationScript_eq (n : Byte) :
    iterationScript n = listenScript ++ (getLenScript ++ payloadScript n) ++ flushScript := by
  rw [← List.append_assoc]
  rfl

theorem rx_not_mem_listenScript : .rx ∉ listenScript := by simp [listenScript, strobeScript, writeScript]

theorem rx_not_mem_flushScript : .rx ∉ flushScript := by simp [flushScript, strobeScript]

theorem count_rx_getPktScript (n : Nat) : (getPktScript n).count .rx = n := by
  simp [getPktScript, List.count_flatten, readScript]

/-- One `RX` for the length byte, and one for each byte of a packet that fits (R205, R209). -/
theorem count_rx_iterationScript (n : Byte) :
    (iterationScript n).count .rx = 1 + if 8 < n.toNat then 0 else n.toNat := by
  have hpayload : (payloadScript n).count .rx = if 8 < n.toNat then 0 else n.toNat := by
    unfold payloadScript
    split
    · next hover => rw [if_pos (show 8 < n.toNat from hover)]; rfl
    · next hover => rw [if_neg (show ¬ 8 < n.toNat from hover), count_rx_getPktScript]
  rw [iterationScript_eq, List.count_append, List.count_append, List.count_append,
    List.count_eq_zero.2 rx_not_mem_listenScript, List.count_eq_zero.2 rx_not_mem_flushScript, hpayload, Nat.zero_add]
  rfl

/-! ### The runs -/

section
variable {s : State} (hr : s.resetPin = false) (hu : s.u = 0)
include hr hu

/-- `LISTEN` (R203, R204). -/
theorem replays_listen (hph : s.ph = .dRxen) :
    Replays listenScript s { s with ds := .listening, ph := .dLen, u := 0, cs := false } := by
  have hrxen : Replays (strobeScript (Config.stbCode .rxEnable)) s
      { s with ds := .listening, ph := .dCfg, u := 0, cs := false } :=
    .phase hr (by simp [isBusy_iff, hph]) hu (phaseScript_dRxen hph) (.strobe _) (rx_not_mem_strobeScript _)
      fun _ => completePhase_dRxen hph
  have hcfg : Replays (writeScript Config.pktrdy.reg Config.pktrdy.val)
      { s with ds := .listening, ph := .dCfg, u := 0, cs := false }
      { s with ds := .listening, ph := .dWait, u := 0, cs := false } :=
    .phase hr rfl rfl (phaseScript_dCfg rfl) (.write _ _) (rx_not_mem_writeScript _ _) fun _ => completePhase_dCfg rfl
  exact (hrxen.append hcfg).append (.single hr rfl rfl (phaseScript_dWait rfl) rfl)

/-- The FIFO bytes go to `BUF` from `BI` on, one read each (R209, R220). -/
theorem receives_getPkt {b : Byte} {more : List Byte} (hph : s.ph = .dFifo)
    (hlen : s.bi.toNat + (b :: more).length = s.len.toNat) (hmax : s.len.toNat ≤ 8) :
    ∃ r i, Receives (getPktScript (b :: more).length) (b :: more) s { s with
      buf := fillBuffer s.bi.toNat (b :: more) s.buf, rdata := r, bi := i, ph := .dIdle, u := 0, cs := false } := by
  induction more generalizing s b with
  | nil =>
    refine ⟨b, s.bi, ?_⟩
    exact .read hr (by simp [isBusy_iff, hph]) hu (phaseScript_dFifo hph)
      fun _ => completePhase_dFifo_last hph hlen.ge
  | cons c more ih =>
    have hlt : s.bi.toNat + 1 < s.len.toNat := by rw [← hlen]; simp
    have hsucc : (s.bi + 1).toNat = s.bi.toNat + 1 :=
      BitVec.toNat_add_of_lt (show s.bi.toNat + 1 < 8 by omega)
    have hread : Receives (readScript (readHeader Config.fifoReg)) [b] s { s with
        buf := Memory.write s.buf s.bi.toNat b, rdata := b, bi := s.bi + 1, ph := .dFifo, u := 0, cs := false } :=
      .read hr (by simp [isBusy_iff, hph]) hu (phaseScript_dFifo hph) fun _ => completePhase_dFifo_next hph hlt
    obtain ⟨r, i, hmore⟩ := ih (s := { s with
        buf := Memory.write s.buf s.bi.toNat b, rdata := b, bi := s.bi + 1, ph := .dFifo, u := 0, cs := false })
      (b := c) hr rfl rfl (by simp only [hsucc, ← hlen, List.length_cons]; omega) hmax
    simp only [hsucc] at hmore
    exact ⟨r, i, hread.append hmore⟩

end

/-- What the length byte `n` and the FIFO bytes after it leave at the first micro-step of `D_IDLE`, from the first of
`D_LEN` in `s` (R205 to R209). -/
structure Gathered (s : State) (n : Byte) (bytes : List Byte) (t : State) : Prop where
  position : t.ph = .dIdle ∧ t.u = 0
  no_reset : t.resetPin = false
  len_eq : t.len = n
  ovs_eq : t.ovs = (s.ovs || decide (8 < n.toNat))
  received_eq : n.toNat ≤ 8 → received t.buf n.toNat = bytes
  address : SameAddress s t
  operation : t.op = s.op ∧ t.it = s.it ∧ t.rspValid = s.rspValid
  offers_eq : t.offers = s.offers

/-- The state in which `D_LEN` completes, at the micro-step `u`: the length byte is in `RDATA`. -/
def lengthRead (n : Byte) (u : BitVec 4) (s : State) : State := { s with u := u, cs := false, rdata := n }

section
variable {s : State} {n : Byte} (hr : s.resetPin = false) (hu : s.u = 0) (hph : s.ph = .dLen)
include hr hu hph

/-- `GETLEN`, up to what the length byte decides (R205). -/
theorem receives_getLen {t : State} (hdone : ∀ u, completePhase (lengthRead n u s) = t) :
    Receives getLenScript [n] s t :=
  .read hr (by simp [isBusy_iff, hph]) hu (phaseScript_dLen hph) hdone

/-- No data: nothing follows the length byte (R207). -/
theorem receives_payload_noData (h : n = 0) :
    ∃ t, Receives (getLenScript ++ payloadScript n) [n] s t ∧ Gathered s n [] t := by
  subst h
  have hget : Receives getLenScript [0] s { s with len := 0, rdata := 0, cs := false, ph := .dIdle, u := 0 } :=
    receives_getLen hr hu hph fun u => completePhase_dLen_noData (s := lengthRead 0 u s) hph rfl
  exact ⟨_, hget.append (.nil _), ⟨rfl, rfl⟩, hr, rfl, (Bool.or_false _).symm, fun _ => rfl, ⟨rfl, rfl, rfl⟩,
    ⟨rfl, rfl, rfl⟩, rfl⟩

/-- An oversize length is reported, and its packet is not read (R208). -/
theorem receives_payload_oversize (h : 8 < n.toNat) :
    ∃ t, Receives (getLenScript ++ payloadScript n) [n] s t ∧ Gathered s n [] t := by
  have hget : Receives getLenScript [n] s { s with len := n, rdata := n, cs := false, ph := .dReport, u := 0 } :=
    receives_getLen hr hu hph fun u => completePhase_dLen_oversize (s := lengthRead n u s) hph h
  have hreport : Receives [.reportOversize n] [] { s with len := n, rdata := n, cs := false, ph := .dReport, u := 0 }
      { s with len := n, rdata := n, cs := false, ovs := true, ph := .dIdle, u := 0 } :=
    Replays.receives (.single hr rfl rfl (phaseScript_dReport rfl) rfl) (by simp)
  rw [payloadScript, if_pos (show maxPkt < n.toNat from h)]
  exact ⟨_, hget.append hreport, ⟨rfl, rfl⟩, hr, rfl, by simp [h], fun hfits => absurd h (Nat.not_lt.2 hfits),
    ⟨rfl, rfl, rfl⟩, ⟨rfl, rfl, rfl⟩, rfl⟩

/-- A packet of 1 to 8 bytes is read into `BUF` (R209). -/
theorem receives_payload_packet {b : Byte} {more : List Byte} (hlen : (b :: more).length = n.toNat)
    (h : n.toNat ≤ 8) :
    ∃ t, Receives (getLenScript ++ payloadScript n) (n :: b :: more) s t ∧ Gathered s n (b :: more) t := by
  have hpos : 1 ≤ n.toNat := by rw [← hlen]; simp
  have hget : Receives getLenScript [n] s
      { s with len := n, bi := 0, ds := .pending, rdata := n, cs := false, ph := .dFifo, u := 0 } :=
    receives_getLen hr hu hph fun u => completePhase_dLen_packet (s := lengthRead n u s) hph hpos h
  obtain ⟨r, i, hfifo⟩ := receives_getPkt
    (s := { s with len := n, bi := 0, ds := .pending, rdata := n, cs := false, ph := .dFifo, u := 0 }) (b := b)
    (more := more) hr rfl rfl ((Nat.zero_add _).trans hlen) h
  rw [payloadScript, if_neg (show ¬ maxPkt < n.toNat from Nat.not_lt.2 h), ← hlen]
  exact ⟨_, hget.append hfifo, ⟨rfl, rfl⟩, hr, rfl, by simp [h], fun _ => hlen ▸ received_fillBuffer _ _,
    ⟨rfl, rfl, rfl⟩, ⟨rfl, rfl, rfl⟩, rfl⟩

/-- The three-way branch of the length byte, each branch run to the flush (R206 to R209). -/
theorem receives_payload {bytes : List Byte} (hbytes : bytes.length = if 8 < n.toNat then 0 else n.toNat) :
    ∃ t, Receives (getLenScript ++ payloadScript n) (n :: bytes) s t ∧ Gathered s n bytes t := by
  obtain hover | hfits := Nat.lt_or_ge 8 n.toNat
  · rw [if_pos hover] at hbytes
    exact List.eq_nil_of_length_eq_zero hbytes ▸ receives_payload_oversize hr hu hph hover
  · rw [if_neg (Nat.not_lt.2 hfits)] at hbytes
    cases bytes with
    | nil => exact receives_payload_noData hr hu hph (BitVec.eq_of_toNat_eq hbytes.symm)
    | cons b more => exact receives_payload_packet hr hu hph hbytes hfits

end

/-- The flushed state, in which `D_FRX` completes. -/
def flushed (t : State) : State := { t with ph := .dFrx, u := 0, cs := false }

/-- The completion of `D_FRX` does not look at `U`. -/
theorem finishDFrx_update_u (s : State) (u : BitVec 4) : finishDFrx { s with u := u } = finishDFrx s := by
  simp only [finishDFrx, acceptAddress, loopBack, complete, enterPhase]

/-- `FLUSH`, and the completion of `D_FRX` after it (R203, R215). -/
theorem replays_flush {s : State} (hr : s.resetPin = false) (hph : s.ph = .dIdle) (hu : s.u = 0) :
    Replays flushScript s (finishDFrx (flushed s)) := by
  have hidle : Replays (strobeScript (Config.stbCode .idle)) s (flushed s) :=
    .phase hr (by simp [isBusy_iff, hph]) hu (phaseScript_dIdle hph) (.strobe _) (rx_not_mem_strobeScript _)
      fun _ => completePhase_dIdle hph
  refine hidle.append (.phase hr rfl rfl (phaseScript_dFrx rfl) (.strobe _) (rx_not_mem_strobeScript _) fun u => ?_)
  exact (completePhase_dFrx rfl).trans (finishDFrx_update_u (flushed s) u)

/-! ### The verdict and the end -/

/-- What the completion of `D_FRX` leaves alone. -/
theorem finishDFrx_keeps (s : State) :
    (finishDFrx s).offers = s.offers ∧ (finishDFrx s).cs = s.cs ∧ (finishDFrx s).len = s.len ∧
      (finishDFrx s).ovs = s.ovs ∧ (finishDFrx s).buf = s.buf := by
  obtain ⟨_, _, -, h⟩ | ⟨-, h | h⟩ := finishDFrx_cases s <;> rw [h] <;> exact ⟨rfl, rfl, rfl, rfl, rfl⟩

/-- Only a parsed packet is a match (R206, R223). -/
theorem parse_of_verdict_matched {len hi lo : Byte} {m : Memory} (h : verdict len m = .matched hi lo) :
    1 ≤ len.toNat ∧ len.toNat ≤ 8 ∧ parse (received m len.toNat) = .matched hi lo := by
  unfold verdict at h
  split at h
  · cases h
  · next hzero =>
    split at h
    · cases h
    · next hover => exact ⟨Nat.pos_of_ne_zero hzero, Nat.not_lt.1 hover, h⟩

theorem verdict_last (len : Byte) (m : Memory) :
    (verdict len m).last = if len.toNat = 0 then .noData else if 8 < len.toNat then .oversize
      else (parse (received m len.toNat)).last := by
  rw [verdict, apply_ite Verdict.last, apply_ite Verdict.last]
  rfl

/-- The last verdict of an iteration, by its length byte and the bytes received. -/
theorem Gathered.verdict_last {s t : State} {n : Byte} {bytes : List Byte} (h : Gathered s n bytes t) :
    (verdict t.len t.buf).last = if n.toNat = 0 then .noData else if 8 < n.toNat then .oversize
      else (parse bytes).last := by
  rw [Machine.verdict_last, h.len_eq]
  by_cases hover : 8 < n.toNat
  · simp only [if_pos hover]
  · rw [h.received_eq (Nat.not_lt.1 hover)]

/-- A match on the bytes received ends the DISC with their address (R216). -/
theorem Gathered.finish_of_match {s t : State} {n hi lo : Byte} {bytes : List Byte} (h : Gathered s n bytes t)
    (h1 : 1 ≤ n.toNat) (h8 : n.toNat ≤ 8) (hmatch : parse bytes = .matched hi lo) :
    finishDFrx (flushed t) = acceptAddress hi lo (flushed t) := by
  have hv : verdict t.len t.buf = .matched hi lo := by
    rw [h.len_eq, verdict_of_parsed_length _ h1 h8, h.received_eq h8, hmatch]
  exact finishDFrx_of_match (s := flushed t) hv

/-- No data, an oversize length or bytes that do not match go back to the loop (R217). -/
theorem Gathered.finish_of_no_match {s t : State} {n : Byte} {bytes : List Byte} (h : Gathered s n bytes t)
    (hnone : n.toNat = 0 ∨ 8 < n.toNat ∨ ∀ hi lo, parse bytes ≠ .matched hi lo) :
    finishDFrx (flushed t) = loopBack (verdict t.len t.buf).last (flushed t) := by
  refine finishDFrx_of_no_match (s := flushed t) fun hi lo hv => ?_
  obtain ⟨h1, h8, hmatch⟩ := parse_of_verdict_matched (show verdict t.len t.buf = .matched hi lo from hv)
  rw [h.len_eq] at h1 h8 hmatch
  rw [h.received_eq h8] at hmatch
  obtain hzero | hover | hno := hnone
  · omega
  · omega
  · exact hno hi lo hmatch

/-- An iteration without a match, at its end (R217). -/
theorem loopBack_fields (v : LastVerdict) (s : State) :
    (loopBack v s).ds = .idle ∧ (loopBack v s).it = s.it + 1 ∧ (loopBack v s).lastv = v := by
  unfold loopBack
  split <;> exact ⟨rfl, rfl, rfl⟩

/-- `ITER` from its first event to the completion of `D_FRX` (R203). -/
theorem receives_iteration {s : State} {n : Byte} {bytes : List Byte} (hr : s.resetPin = false)
    (hph : s.ph = .dRxen) (hu : s.u = 0) (hbytes : bytes.length = if 8 < n.toNat then 0 else n.toNat) :
    ∃ t, Receives (iterationScript n) (n :: bytes) s (finishDFrx (flushed t)) ∧
      Gathered { s with ds := .listening, ph := .dLen, u := 0, cs := false } n bytes t := by
  obtain ⟨t, hpayload, hg⟩ := receives_payload
    (s := { s with ds := .listening, ph := .dLen, u := 0, cs := false }) hr rfl rfl hbytes
  have hlisten := (replays_listen hr hu hph).receives rx_not_mem_listenScript
  have hflush := (replays_flush hg.no_reset hg.position.1 hg.position.2).receives rx_not_mem_flushScript
  have hiter := (hlisten.append hpayload).append hflush
  rw [← iterationScript_eq, List.nil_append, List.append_nil] at hiter
  exact ⟨t, hiter, hg⟩

/-- Settles O46: the listen set-up, the length byte with what it asks for, and the flush follow one another, and the
completion of `D_FRX` ends the iteration by the verdict on the bytes received. -/
theorem discoveryIterationRuns : Obligations.DiscoveryIterationRuns := by
  intro s n bytes ys rest hr hph hu hlen hrx ha
  have hbytes : bytes.length = if 8 < n.toNat then 0 else n.toNat := by
    have hcount := rxBytes_length hlen
    rw [hrx, count_rx_iterationScript, List.length_cons] at hcount
    omega
  obtain ⟨t, hiter, hg⟩ := receives_iteration hr hph hu hbytes
  have hrun := hiter.run_eq ys rest s.trace hlen hrx
  rw [← ha] at hrun
  obtain ⟨hoffers, hcs, hlen', hovs, hbuf⟩ := finishDFrx_keeps (flushed t)
  obtain ⟨hhi, hlo, hvalid⟩ := hg.address
  obtain ⟨hop, hit, hrsp⟩ := hg.operation
  refine ⟨_, hrun, rfl, rfl, hoffers.trans hg.offers_eq, hcs, hlen'.trans hg.len_eq, hovs.trans hg.ovs_eq,
    fun hfits => (congrArg (received · n.toNat) hbuf).trans (hg.received_eq hfits), fun hi lo h1 h8 hmatch => ?_,
    fun hnone => ?_⟩
  · rw [hg.finish_of_match h1 h8 hmatch]
    exact ⟨rfl, rfl, rfl, rfl, rfl, rfl, rfl, rfl, rfl⟩
  · rw [hg.finish_of_no_match hnone]
    obtain ⟨hhi', hlo', hvalid'⟩ := sameAddress_loopBack (verdict t.len t.buf).last (flushed t)
    obtain ⟨hds, hit', hlastv⟩ := loopBack_fields (verdict t.len t.buf).last (flushed t)
    refine ⟨hhi'.trans hhi, hlo'.trans hlo, hvalid'.trans hvalid, hds, hit'.trans (congrArg (· + 1) hit),
      hlastv.trans hg.verdict_last, fun hlimit => ?_, fun hlimit => ?_⟩
    · have hend := loopBack_of_limit (s := flushed t) (verdict t.len t.buf).last
        (by simpa only [flushed, hit] using hlimit)
      exact ⟨congrArg State.ph hend, congrArg State.op hend, congrArg State.rsp hend, congrArg State.rspValid hend⟩
    · have hend := loopBack_of_no_limit (s := flushed t) (verdict t.len t.buf).last
        (by simpa only [flushed, hit] using hlimit)
      exact ⟨congrArg State.ph hend, congrArg State.u hend, (congrArg State.op hend).trans hop,
        (congrArg State.rspValid hend).trans hrsp⟩

end Sys2Proof.Machine
end
